-- ==== Sys2Proof/Word.lean ====
section
/-! DEFINITION. The word types of the block's interface (spec/00_scope.md R7, R8; spec/30_encoding.md R75). -/

namespace Sys2Proof

/-- A data byte of the bus (R7). -/
abbrev Byte := BitVec 8

/-- A 16-bit bus address (R7, R60). -/
abbrev BusAddr := BitVec 16

/-- An operation word, OPW: `K[25:24] A[23:8] D[7:0]` (R75). -/
abbrev Opw := BitVec 26

end Sys2Proof
end

