-- ==== Sys2Proof/Machine/Units.lean ====
section
/-! DEFINITION. The records of the collaborators the block calls, and the calls themselves
(spec/10_state.md R30-R43). Types only; what a call does stands in Machine/Ops.lean. -/

namespace Sys2Proof.Machine

/-- The opaque internal state of a collaborator, coded as a natural number (R31, R33, R35, R42, R43). The block never
looks into it. DESIGN CHOICE, safe: notes/assumptions/5.md. -/
abbrev Internal := Nat

/-- A channel amplitude, a float (R31). The carrier is the IEEE 754 binary64 datum; a binary32 value is carried widened,
which is exact. DESIGN CHOICE, safe: notes/assumptions/10.md. -/
abbrev Amp := BitVec 64

/-- The two evaluation formats of the Mixer (R6 `MIX_FORMAT`, R162). -/
inductive MixFormat where
  | binary32
  | binary64
  deriving DecidableEq, Repr, Inhabited

/-- The two pulse slots (R30). -/
inductive PulseId where
  | p1
  | p2
  deriving DecidableEq, Repr, Inhabited

/-- The three slots with an 11-bit timer period (R32). -/
inductive TimerId where
  | p1
  | p2
  | t
  deriving DecidableEq, Repr, Inhabited

/-- The three slots with an envelope (R30, R35). -/
inductive EnvId where
  | p1
  | p2
  | n
  deriving DecidableEq, Repr, Inhabited

/-- The four slots with a length counter (R30, R36). -/
inductive LcId where
  | p1
  | p2
  | t
  | n
  deriving DecidableEq, Repr, Inhabited

/-- The five channel slots in their fixed order (R30). -/
inductive ChanId where
  | p1
  | p2
  | t
  | n
  | d
  deriving DecidableEq, Repr, Inhabited

/-- An envelope (R35): the four fields of its record and its opaque divider and decay state. -/
structure Envelope where
  volume            : BitVec 4
  useConstantVolume : Bool
  loopFlag          : Bool
  startFlag         : Bool
  internal          : Internal
  deriving DecidableEq, Repr, Inhabited

/-- A length counter (R36). `counter` is a natural number so that an answer outside 0..255 can be told apart and
refused (R182); notes/assumptions/12.md. -/
structure LengthCounter where
  counter : Nat
  halt    : Bool
  enabled : Bool
  deriving DecidableEq, Repr, Inhabited

/-- A sweep unit (R42): the byte the block writes and its opaque state. -/
structure Sweep where
  data     : Byte
  internal : Internal
  deriving DecidableEq, Repr, Inhabited

/-- The triangle's linear counter (R33). -/
structure LinearCounter where
  reloadValue : BitVec 7
  control     : Bool
  reloadFlag  : Bool
  internal    : Internal
  deriving DecidableEq, Repr, Inhabited

/-- A pulse channel (R30, R31, R32). -/
structure Pulse where
  duty     : BitVec 2
  period   : BitVec 16
  env      : Envelope
  lc       : LengthCounter
  sw       : Sweep
  internal : Internal
  deriving DecidableEq, Repr, Inhabited

/-- The triangle channel (R30, R31, R32, R33). -/
structure Triangle where
  period   : BitVec 16
  lin      : LinearCounter
  lc       : LengthCounter
  internal : Internal
  deriving DecidableEq, Repr, Inhabited

/-- The noise channel (R30, R31, R34). -/
structure Noise where
  mode        : Bool
  periodIndex : BitVec 4
  env         : Envelope
  lc          : LengthCounter
  internal    : Internal
  deriving DecidableEq, Repr, Inhabited

/-- The part of the DMC sample reader its own activity changes between operations (R43): the bytes still to play, its
IRQ flag, its change-request flag and its opaque internal state. The spec calls the width of the remaining bytes
external; the model takes a natural number without a bound. DESIGN CHOICE, safe: notes/assumptions/20.md. -/
structure DmcReader where
  remainingBytes  : Nat
  irqFlag         : Bool
  changeRequested : Bool
  internal        : Internal
  deriving DecidableEq, Repr, Inhabited

/-- The DMC (R43): the fields the block writes, and the reader. -/
structure Dmc where
  rateIndex         : BitVec 4
  loopFlag          : Bool
  irqEnabled        : Bool
  directOutputLevel : BitVec 7
  sampleAddress     : Byte
  sampleLength      : Byte
  reader            : DmcReader
  deriving DecidableEq, Repr, Inhabited

/-- What each channel's query `get_output` answers now (R31, R160). The model holds the answers of the opaque
`GetOutput_c` here and renews a channel's answer at every call on it but the clear of the DMC's change request. DESIGN
CHOICE, unsafe right after reset: notes/assumptions/4.md, 21.md. -/
structure Outputs where
  p1 : Amp
  p2 : Amp
  t  : Amp
  n  : Amp
  d  : Amp
  deriving DecidableEq, Repr, Inhabited

/-- The collaborator-owned state (R30): the five channel slots, and what they answer to `get_output`. -/
structure Collab where
  p1      : Pulse
  p2      : Pulse
  t       : Triangle
  n       : Noise
  d       : Dmc
  outputs : Outputs
  deriving DecidableEq, Repr, Inhabited

/-- A collaborator call: the record `(U, m, args)` of the call trace (R9), one constructor per method `m` of
R31-R43. Queries make no record (R9). -/
inductive Call where
  /-- `c.timer_clock()` (R31) -/
  | timerClock (c : ChanId)
  /-- `c.reset()` (R31); the operations of the block make it on the pulses only (R104, R108, R112) -/
  | reset (c : ChanId)
  /-- `p.set_duty(d)` (R32) -/
  | setDuty (p : PulseId) (d : BitVec 2)
  /-- `set_period(v)` of P1, P2 or T (R32) -/
  | setPeriod (u : TimerId) (v : BitVec 16)
  /-- `e.set_volume(level, use_constant)` (R35) -/
  | setVolume (e : EnvId) (level : BitVec 4) (useConstant : Bool)
  /-- `e.set_loop_flag(b)` (R35) -/
  | setEnvLoopFlag (e : EnvId) (b : Bool)
  /-- `e.set_start_flag(b)` (R35) -/
  | setStartFlag (e : EnvId) (b : Bool)
  /-- `e.clock()` (R35) -/
  | envClock (e : EnvId)
  /-- `l.set_halt(b)` (R37) -/
  | setHalt (l : LcId) (b : Bool)
  /-- `l.set_enabled(b)` (R38) -/
  | setEnabled (l : LcId) (b : Bool)
  /-- `l.reload_counter(i)` (R39) -/
  | reloadCounter (l : LcId) (i : BitVec 5)
  /-- `l.decrement()` (R40) -/
  | decrement (l : LcId)
  /-- `w.set_sweeper_data(byte)` (R42) -/
  | setSweeperData (p : PulseId) (data : Byte)
  /-- `w.clock_sweeper()` (R42) -/
  | clockSweeper (p : PulseId)
  /-- `T.set_linear_counter_reload_value(v)` (R33) -/
  | setLinReloadValue (v : BitVec 7)
  /-- `T.set_linear_counter_control_flag(b)` (R33) -/
  | setLinControlFlag (b : Bool)
  /-- `T.set_linear_counter_reload_flag(true)` (R33): its only argument is `true` -/
  | setLinReloadFlag
  /-- `T.clock_linear_counter()` (R33) -/
  | clockLinearCounter
  /-- `N.set_mode(b)` (R34) -/
  | setNoiseMode (b : Bool)
  /-- `N.set_period_index(i)` (R34) -/
  | setNoisePeriodIndex (i : BitVec 4)
  /-- `D.set_rate_index(i)` (R43) -/
  | setRateIndex (i : BitVec 4)
  /-- `D.set_loop_flag(b)` (R43) -/
  | setDmcLoopFlag (b : Bool)
  /-- `D.set_irq_enabled_flag(b)` (R43) -/
  | setIrqEnabledFlag (b : Bool)
  /-- `D.set_direct_output_level_load(v)` (R43) -/
  | setDirectOutputLevel (v : BitVec 7)
  /-- `D.set_samples_address(a)` (R43) -/
  | setSamplesAddress (a : Byte)
  /-- `D.set_samples_length(n)` (R43) -/
  | setSamplesLength (n : Byte)
  /-- `D.restart_sample()` (R43) -/
  | restartSample
  /-- `D.clear_sample_remaining_bytes_and_silence()` (R43) -/
  | clearRemainingAndSilence
  /-- `D.clear_irq_flag()` (R43) -/
  | clearIrqFlag
  /-- `D.clear_change_request()` (R43) -/
  | clearChangeRequest
  deriving DecidableEq, Repr, Inhabited

end Sys2Proof.Machine
end

