-- ==== Sys2Proof/Config.lean ====
section
/-! DEFINITION. The block's constants and parameters (spec/00_scope.md R5, R6). What the spec fixes has a value. What
the spec leaves OPEN is an opaque constant with no body: nothing can evaluate it, and a claim holds whatever it is
(notes/assumptions/5.md to 8.md, 15.md). -/

namespace Sys2Proof.Config

open Sys2Proof.Machine

/-- R5 `Q1`: the first quarter-frame count. -/
abbrev q1 : BitVec 16 := 3729
/-- R5 `Q2`: the second quarter-frame and first half-frame count. -/
abbrev q2 : BitVec 16 := 7457
/-- R5 `Q3`: the third quarter-frame count. -/
abbrev q3 : BitVec 16 := 11186
/-- R5 `T4`: the four-step terminal count. -/
abbrev t4 : BitVec 16 := 14915
/-- R5 `T5`: the five-step terminal count. -/
abbrev t5 : BitVec 16 := 18641

/-- R6 `TRI_HALT_FROM_CTRL`: triangle control bit 7 also drives the triangle length-counter halt (the spec's decision
D17, from general knowledge: notes/assumptions/14.md). -/
def triHaltFromCtrl : Bool := true

/-- R6, R39 `LC_RELOAD_WHEN_DISABLED`, OPEN: whether `reload_counter` changes a disabled length counter. -/
opaque lcReloadWhenDisabled : Bool

/-- R6, R36 `LENGTH_TABLE`, OPEN: 32 values in 0..255. -/
opaque lengthTable : BitVec 5 → BitVec 8

/-- R6, R162 `MIX_FORMAT`, OPEN: the format the Mixer is evaluated in. -/
opaque mixFormat : MixFormat

/-- R31 `TimerClock_c` of a pulse: the channel's next internal state. -/
opaque timerClockPulse : PulseId → Pulse → Internal
/-- R31 `TimerClock_c` of the triangle. -/
opaque timerClockTriangle : Triangle → Internal
/-- R31 `TimerClock_c` of the noise channel. -/
opaque timerClockNoise : Noise → Internal
/-- R31 `TimerClock_c` of the DMC. -/
opaque timerClockDmc : Dmc → Internal

/-- R31 `ChanReset_c` of a pulse: the channel's internal state after `reset()` (D28). -/
opaque chanResetPulse : PulseId → Pulse → Internal
/-- R31 `ChanReset_c` of the triangle. -/
opaque chanResetTriangle : Triangle → Internal
/-- R31 `ChanReset_c` of the noise channel. -/
opaque chanResetNoise : Noise → Internal
/-- R31 `ChanReset_c` of the DMC. -/
opaque chanResetDmc : Dmc → Internal

/-- R35 `EnvClock`: the effect of `clock()` on the whole envelope, `start_flag` included. -/
opaque envClock : EnvId → Envelope → Envelope

/-- R42 `SweepClock`: the effect of `clock_sweeper()` on the sweep unit and the pulse's period. -/
opaque sweepClock : PulseId → Pulse → Sweep × BitVec 16

/-- R33 `LinClock`: the effect of `clock_linear_counter()` on the linear counter and its internal count. -/
opaque linClock : Triangle → LinearCounter

/-- R43 `DmcRestart`: the reader after `restart_sample()`. -/
opaque dmcRestart : Dmc → DmcReader

/-- R43 `DmcSilence`: the DMC's internal state after it was silenced. -/
opaque dmcSilence : Dmc → Internal

/-- R43: what a setter call does beyond setting its field is internal to the DMC: its internal state after the call. -/
opaque dmcSetterInternal : Call → Dmc → Internal

/-- R117: whether clearing the IRQ-enabled flag also clears the DMC IRQ flag is internal to the DMC. -/
opaque dmcIrqDisableClearsFlag : Dmc → Bool

/-- R31, R160 `GetOutput_c` of a pulse, from the channel's state. -/
opaque getOutputPulse : PulseId → Pulse → Amp
/-- R31, R160 `GetOutput_c` of the triangle. -/
opaque getOutputTriangle : Triangle → Amp
/-- R31, R160 `GetOutput_c` of the noise channel. -/
opaque getOutputNoise : Noise → Amp
/-- R31, R160 `GetOutput_c` of the DMC. The model applies it to the DMC with its change request cleared
(notes/assumptions/21.md). -/
opaque getOutputDmc : Dmc → Amp

/-- The sample of in-contract answers that are not all values of `MIX_FORMAT`, for which the spec states no result: a
free value, the same for the same answers (R160). DESIGN CHOICE, safe: notes/assumptions/10.md. -/
opaque mixUnstated : Outputs → Amp

end Sys2Proof.Config
end

