-- ==== Sys2Proof/Machine/State.lean ====
section
/-! DEFINITION. The state of the block, the reasons an operation is refused, and the state after construction
(spec/10_state.md R20-R44, spec/60_exceptions.md R180-R182, spec/70_reset_and_hazards.md R200, R201). -/

namespace Sys2Proof.Machine

/-- The frame-sequencer schedule in force (R24). -/
inductive Mode where
  | fourStep
  | fiveStep
  deriving DecidableEq, Repr, Inhabited

/-- The delayed-reset state (R28): `Idle`, or `Pending(n)` with n in 0, 1, 2. -/
inductive ResetDelay where
  | idle
  | pending (n : Fin 3)
  deriving DecidableEq, Repr, Inhabited

/-- The block state `st` (R20). Nothing else is block state. -/
structure BlockState where
  cycle              : BitVec 16
  mode               : Mode
  interruptInhibit   : Bool
  frameInterruptFlag : Bool
  irqChangeRequested : Bool
  resetDelay         : ResetDelay
  deriving DecidableEq, Repr, Inhabited

/-- The value an operation returns, if any (R4). -/
inductive Result where
  /-- the operation returns no value (a bus write, CLOCK, CLRQ) -/
  | nothing
  /-- the byte of a bus read (R130, R131) -/
  | byte (b : Byte)
  /-- the Boolean of ISCR or PIN (R171, R172) -/
  | bool (b : Bool)
  /-- the sample of MIX (R160) -/
  | sample (a : Amp)
  deriving DecidableEq, Repr, Inhabited

/-- One entry of the stream the block executes (R68): a request of the host, or DMC activity between two operations.
DESIGN CHOICE, safe: notes/assumptions/1.md, 9.md, 17.md. -/
inductive Event where
  /-- an operation spelled as an operation word (R75); a number of any size, so that a word that is no OPW can be
  presented and refused (R77) -/
  | word (w : Nat)
  /-- the bus write `MemWrite(addr, n, v)` of the `n` bytes listed (R9, R61) -/
  | busWrite (addr : BusAddr) (bytes : List Byte)
  /-- the bus read `MemRead(addr, n)` (R9, R61) -/
  | busRead (addr : BusAddr) (n : Nat)
  /-- the environment step of the DMC sample reader, to any reader state (R43) -/
  | dmcActivity (r : DmcReader)
  deriving DecidableEq, Repr, Inhabited

/-- The machine: the block state, the collaborator-owned state, the externally visible result of the last operation
(its call trace and its return value, R4) and the operations still to come. -/
structure State where
  st       : BlockState
  collab   : Collab
  trace    : List Call
  result   : Result
  schedule : List Event
  deriving DecidableEq, Repr, Inhabited

/-- The block raises no exception: no operation traps, faults or signals an error (R180). The type has no constructor,
so no step can end in a fault. DEDUCED, safe: notes/assumptions/16.md. -/
inductive Fault where
  deriving DecidableEq, Repr

/-- The refusal reasons (R182): a refused operation has no meaning and no next state (R181). All are safe: nothing is
claimed about a run past a refusal. -/
inductive Refusal where
  /-- raised by an arm of `exec` whose instruction has no meaning yet; no arm raises it now. Safe. -/
  | notModelled (mnemonic : String)
  /-- raised by the fetch of an illegal operation word (R77, R95). Safe. -/
  | badOperationWord
  /-- raised by the fetch of a bus access of other than one byte (R61). Safe. -/
  | widthNotOne
  /-- raised by MIX when a channel's answer is outside its range, NaN or infinite (R164). Safe. -/
  | amplitudeOutOfContract
  /-- raised by RD STATUS on a `counter()` answer above 255 (R41, R182). Safe. -/
  | collaboratorOutOfContract
  deriving DecidableEq, Repr

/-- The block state right after construction (R20, R200). -/
def BlockState.reset : BlockState where
  cycle              := 0
  mode               := .fourStep
  interruptInhibit   := false
  frameInterruptFlag := false
  irqChangeRequested := false
  resetDelay         := .idle

/-- An envelope of the model's `COLLAB_INIT`. DESIGN CHOICE, unsafe: notes/assumptions/3.md. -/
def Envelope.init : Envelope where
  volume            := 0
  useConstantVolume := false
  loopFlag          := false
  startFlag         := false
  internal          := 0

/-- A length counter of the model's `COLLAB_INIT`. DESIGN CHOICE, unsafe: notes/assumptions/3.md. -/
def LengthCounter.init : LengthCounter where
  counter := 0
  halt    := false
  enabled := false

/-- A pulse of the model's `COLLAB_INIT`. DESIGN CHOICE, unsafe: notes/assumptions/3.md. -/
def Pulse.init : Pulse where
  duty     := 0
  period   := 0
  env      := .init
  lc       := .init
  sw       := { data := 0, internal := 0 }
  internal := 0

/-- The triangle of the model's `COLLAB_INIT`. DESIGN CHOICE, unsafe: notes/assumptions/3.md. -/
def Triangle.init : Triangle where
  period   := 0
  lin      := { reloadValue := 0, control := false, reloadFlag := false, internal := 0 }
  lc       := .init
  internal := 0

/-- The noise channel of the model's `COLLAB_INIT`. DESIGN CHOICE, unsafe: notes/assumptions/3.md. -/
def Noise.init : Noise where
  mode        := false
  periodIndex := 0
  env         := .init
  lc          := .init
  internal    := 0

/-- The DMC of the model's `COLLAB_INIT`. DESIGN CHOICE, unsafe: notes/assumptions/3.md. -/
def Dmc.init : Dmc where
  rateIndex         := 0
  loopFlag          := false
  irqEnabled        := false
  directOutputLevel := 0
  sampleAddress     := 0
  sampleLength      := 0
  reader            := { remainingBytes := 0, irqFlag := false, changeRequested := false, internal := 0 }

/-- The model's `COLLAB_INIT` (OPEN in the spec: R6, R201). DESIGN CHOICE, unsafe: notes/assumptions/3.md and, for the
answers of `get_output`, 4.md. -/
def Collab.init : Collab where
  p1      := .init
  p2      := .init
  t       := .init
  n       := .init
  d       := .init
  outputs := { p1 := 0, p2 := 0, t := 0, n := 0, d := 0 }

/-- Construction with a given `COLLAB_INIT` (R200, R201): the block state at its reset values, no collaborator call
made, nothing returned, nothing issued yet. -/
def State.construct (collabInit : Collab) : State where
  st       := .reset
  collab   := collabInit
  trace    := []
  result   := .nothing
  schedule := []

/-- The machine right after reset: construction with the model's own `COLLAB_INIT`. -/
def State.reset : State := .construct .init

end Sys2Proof.Machine
end

