-- ==== Sys2Proof/Machine/Flags.lean ====
section
/-! DEFINITION. The frame IRQ flag, the change-request latch and the byte a status read returns
(spec/10_state.md R26, R27; spec/42_frame_sequencer.md R144; spec/30_encoding.md R93). -/

namespace Sys2Proof.Machine

/-- Clears the frame IRQ flag and sets the latch, whatever the flag was (R27, R122, R130). -/
def BlockState.clearFrameFlag (st : BlockState) : BlockState :=
  { st with frameInterruptFlag := false, irqChangeRequested := true }

/-- `FrameIrq` (R144): unless inhibited, sets the flag and the latch. -/
def BlockState.frameIrq (st : BlockState) : BlockState :=
  if st.interruptInhibit then st else { st with frameInterruptFlag := true, irqChangeRequested := true }

/-- Clears the latch (R170). -/
def BlockState.clearLatch (st : BlockState) : BlockState := { st with irqChangeRequested := false }

/-- The bit of a length counter in the status byte (R93): 1 when the counter is not 0. -/
def LengthCounter.active (l : LengthCounter) : Bool := l.counter != 0

/-- The status byte (R93, R130), bit 7 first; bit 5 is reserved and reads 0. -/
def statusByte (dmcIrq frameIrq dmcActive n t p2 p1 : Bool) : Byte :=
  BitVec.ofBool dmcIrq ++ BitVec.ofBool frameIrq ++ BitVec.ofBool false ++ BitVec.ofBool dmcActive ++
    BitVec.ofBool n ++ BitVec.ofBool t ++ BitVec.ofBool p2 ++ BitVec.ofBool p1

end Sys2Proof.Machine
end

