-- ==== Sys2Proof/Machine/Ops.lean ====
section
/-! DEFINITION. The collaborator contracts: what each call does to collaborator state (spec/10_state.md R31-R43), how a
call is recorded in the call trace (spec/00_scope.md R9), and the queries.

Taking an exception: the block has none to take and none to return from (spec/60_exceptions.md R180, R187, R188), so no
shared operation for it stands here; the interrupt line it drives is Machine/Flags.lean and Machine/Arbiter.lean.
Memory: the block has none (spec/00_scope.md R7, spec/20_memory.md R60). -/

namespace Sys2Proof.Machine

/-! Envelope (R35) -/

/-- `e.set_volume(level, use_constant)` (R35). -/
def Envelope.setVolume (level : BitVec 4) (useConstant : Bool) (e : Envelope) : Envelope :=
  { e with volume := level, useConstantVolume := useConstant }

/-- `e.set_loop_flag(b)` (R35). -/
def Envelope.setLoopFlag (b : Bool) (e : Envelope) : Envelope := { e with loopFlag := b }

/-- `e.set_start_flag(b)` (R35). -/
def Envelope.setStartFlag (b : Bool) (e : Envelope) : Envelope := { e with startFlag := b }

/-! Length counter (R36-R41) -/

/-- `l.set_halt(b)` (R37). -/
def LengthCounter.setHalt (b : Bool) (l : LengthCounter) : LengthCounter := { l with halt := b }

/-- `l.set_enabled(b)` (R38): disabling zeroes the counter at once. -/
def LengthCounter.setEnabled (b : Bool) (l : LengthCounter) : LengthCounter :=
  { l with enabled := b, counter := if b then l.counter else 0 }

/-- `l.reload_counter(i)` (R39). -/
def LengthCounter.reload (i : BitVec 5) (l : LengthCounter) : LengthCounter :=
  { l with counter := if l.enabled || Config.lcReloadWhenDisabled then (Config.lengthTable i).toNat else l.counter }

/-- `l.decrement()` (R40). -/
def LengthCounter.decrement (l : LengthCounter) : LengthCounter :=
  { l with counter := if l.counter != 0 && !l.halt then l.counter - 1 else l.counter }

/-- The contract type of the query `l.counter()` (R41): 0..255. -/
def LengthCounter.inContract (l : LengthCounter) : Bool := l.counter ≤ 255

/-! Sweep (R42) -/

/-- `w.set_sweeper_data(byte)` (R42). -/
def Sweep.setData (data : Byte) (w : Sweep) : Sweep := { w with data := data }

/-! Pulse (R31, R32) -/

/-- `p.timer_clock()` (R31): only the internal state. notes/assumptions/6.md. -/
def Pulse.timerClock (i : PulseId) (p : Pulse) : Pulse := { p with internal := Config.timerClockPulse i p }

/-- `reset()` of a pulse (R31, R202): only the channel's phase, in the internal state. notes/assumptions/6.md. -/
def Pulse.reset (i : PulseId) (p : Pulse) : Pulse := { p with internal := Config.chanResetPulse i p }

/-- `w.clock_sweeper()` (R42): the sweep unit and the pulse's period. -/
def Pulse.clockSweeper (i : PulseId) (p : Pulse) : Pulse :=
  { p with sw := (Config.sweepClock i p).1, period := (Config.sweepClock i p).2 }

/-! Triangle (R31, R33) -/

/-- `T.timer_clock()` (R31). -/
def Triangle.timerClock (t : Triangle) : Triangle := { t with internal := Config.timerClockTriangle t }

/-- `T.reset()` (R31, R202). -/
def Triangle.reset (t : Triangle) : Triangle := { t with internal := Config.chanResetTriangle t }

/-- `T.clock_linear_counter()` (R33): the linear counter and its internal count. -/
def Triangle.clockLinear (t : Triangle) : Triangle := { t with lin := Config.linClock t }

/-! Noise (R31) -/

/-- `N.timer_clock()` (R31). -/
def Noise.timerClock (n : Noise) : Noise := { n with internal := Config.timerClockNoise n }

/-- `N.reset()` (R31, R202). -/
def Noise.reset (n : Noise) : Noise := { n with internal := Config.chanResetNoise n }

/-! DMC (R31, R43) -/

/-- Sets the DMC's opaque internal state. -/
def Dmc.setInternal (x : Internal) (d : Dmc) : Dmc := { d with reader := { d.reader with internal := x } }

/-- `D.timer_clock()` (R31). -/
def Dmc.timerClock (d : Dmc) : Dmc := d.setInternal (Config.timerClockDmc d)

/-- `D.reset()` (R31, R202). -/
def Dmc.reset (d : Dmc) : Dmc := d.setInternal (Config.chanResetDmc d)

/-- A DMC setter (R43): the field it names, already set in `d`, and an effect internal to the DMC.
notes/assumptions/7.md. -/
def Dmc.afterSetter (k : Call) (d : Dmc) : Dmc := d.setInternal (Config.dmcSetterInternal k d)

/-- `D.set_irq_enabled_flag(b)` (R43, R117): whether clearing the flag also clears the DMC IRQ flag is internal to the
DMC. notes/assumptions/7.md. -/
def Dmc.setIrqEnabled (b : Bool) (d : Dmc) : Dmc :=
  ({ d with
      irqEnabled := b
      reader := { d.reader with
        irqFlag := d.reader.irqFlag && (b || !Config.dmcIrqDisableClearsFlag d) } } : Dmc).afterSetter
    (.setIrqEnabledFlag b)

/-- `D.restart_sample()` (R43). notes/assumptions/8.md. -/
def Dmc.restart (d : Dmc) : Dmc := { d with reader := Config.dmcRestart d }

/-- `D.clear_sample_remaining_bytes_and_silence()` (R43). notes/assumptions/8.md. -/
def Dmc.clearRemainingAndSilence (d : Dmc) : Dmc :=
  { d with reader := { d.reader with remainingBytes := 0, internal := Config.dmcSilence d } }

/-- `D.clear_irq_flag()` (R43). -/
def Dmc.clearIrqFlag (d : Dmc) : Dmc := { d with reader := { d.reader with irqFlag := false } }

/-- `D.clear_change_request()` (R43, D42). -/
def Dmc.clearChangeRequest (d : Dmc) : Dmc := { d with reader := { d.reader with changeRequested := false } }

/-- The query `D.get_output()` (R31, R160): it does not depend on the change request, so that CLRQ between two MIXes
changes no answer. DEDUCED from R160, safe: notes/assumptions/21.md. -/
def Dmc.getOutput (d : Dmc) : Amp := Config.getOutputDmc d.clearChangeRequest

/-- The query `D.sample_remaining_bytes_more_than_0()` (R43). -/
def Dmc.remainingMoreThan0 (d : Dmc) : Bool := 0 < d.reader.remainingBytes

/-! Access to a unit by its slot (R30) -/

/-- The pulse of a slot. -/
def Collab.pulse : PulseId → Collab → Pulse
  | .p1, c => c.p1
  | .p2, c => c.p2

/-- Changes the pulse of a slot. -/
def Collab.onPulse (i : PulseId) (f : Pulse → Pulse) (c : Collab) : Collab :=
  match i with
  | .p1 => { c with p1 := f c.p1 }
  | .p2 => { c with p2 := f c.p2 }

/-- Changes the triangle. -/
def Collab.onTriangle (f : Triangle → Triangle) (c : Collab) : Collab := { c with t := f c.t }

/-- Changes the noise channel. -/
def Collab.onNoise (f : Noise → Noise) (c : Collab) : Collab := { c with n := f c.n }

/-- Changes the DMC. -/
def Collab.onDmc (f : Dmc → Dmc) (c : Collab) : Collab := { c with d := f c.d }

/-- Changes the envelope of a slot. -/
def Collab.onEnv (i : EnvId) (f : Envelope → Envelope) (c : Collab) : Collab :=
  match i with
  | .p1 => { c with p1 := { c.p1 with env := f c.p1.env } }
  | .p2 => { c with p2 := { c.p2 with env := f c.p2.env } }
  | .n => { c with n := { c.n with env := f c.n.env } }

/-- The length counter of a slot. -/
def Collab.lc : LcId → Collab → LengthCounter
  | .p1, c => c.p1.lc
  | .p2, c => c.p2.lc
  | .t, c => c.t.lc
  | .n, c => c.n.lc

/-- Changes the length counter of a slot. -/
def Collab.onLc (i : LcId) (f : LengthCounter → LengthCounter) (c : Collab) : Collab :=
  match i with
  | .p1 => { c with p1 := { c.p1 with lc := f c.p1.lc } }
  | .p2 => { c with p2 := { c.p2 with lc := f c.p2.lc } }
  | .t => { c with t := { c.t with lc := f c.t.lc } }
  | .n => { c with n := { c.n with lc := f c.n.lc } }

/-- The query `get_period()` (R32). -/
def Collab.getPeriod : TimerId → Collab → BitVec 16
  | .p1, c => c.p1.period
  | .p2, c => c.p2.period
  | .t, c => c.t.period

/-- `set_period(v)` (R32). -/
def Collab.setPeriod (i : TimerId) (v : BitVec 16) (c : Collab) : Collab :=
  match i with
  | .p1 => { c with p1 := { c.p1 with period := v } }
  | .p2 => { c with p2 := { c.p2 with period := v } }
  | .t => { c with t := { c.t with period := v } }

/-! Calls -/

/-- What a call does to the unit it is made on (R31-R43). -/
def Collab.applyCall (k : Call) (c : Collab) : Collab :=
  match k with
  | .timerClock .p1 => c.onPulse .p1 (Pulse.timerClock .p1)
  | .timerClock .p2 => c.onPulse .p2 (Pulse.timerClock .p2)
  | .timerClock .t => c.onTriangle Triangle.timerClock
  | .timerClock .n => c.onNoise Noise.timerClock
  | .timerClock .d => c.onDmc Dmc.timerClock
  | .reset .p1 => c.onPulse .p1 (Pulse.reset .p1)
  | .reset .p2 => c.onPulse .p2 (Pulse.reset .p2)
  | .reset .t => c.onTriangle Triangle.reset
  | .reset .n => c.onNoise Noise.reset
  | .reset .d => c.onDmc Dmc.reset
  | .setDuty i x => c.onPulse i (fun p => { p with duty := x })
  | .setPeriod i v => c.setPeriod i v
  | .setVolume i level useConstant => c.onEnv i (Envelope.setVolume level useConstant)
  | .setEnvLoopFlag i b => c.onEnv i (Envelope.setLoopFlag b)
  | .setStartFlag i b => c.onEnv i (Envelope.setStartFlag b)
  | .envClock i => c.onEnv i (Config.envClock i)
  | .setHalt i b => c.onLc i (LengthCounter.setHalt b)
  | .setEnabled i b => c.onLc i (LengthCounter.setEnabled b)
  | .reloadCounter i x => c.onLc i (LengthCounter.reload x)
  | .decrement i => c.onLc i LengthCounter.decrement
  | .setSweeperData i x => c.onPulse i (fun p => { p with sw := p.sw.setData x })
  | .clockSweeper i => c.onPulse i (Pulse.clockSweeper i)
  | .setLinReloadValue v => c.onTriangle (fun t => { t with lin := { t.lin with reloadValue := v } })
  | .setLinControlFlag b => c.onTriangle (fun t => { t with lin := { t.lin with control := b } })
  | .setLinReloadFlag => c.onTriangle (fun t => { t with lin := { t.lin with reloadFlag := true } })
  | .clockLinearCounter => c.onTriangle Triangle.clockLinear
  | .setNoiseMode b => c.onNoise (fun n => { n with mode := b })
  | .setNoisePeriodIndex i => c.onNoise (fun n => { n with periodIndex := i })
  | .setRateIndex i => c.onDmc (fun d => ({ d with rateIndex := i } : Dmc).afterSetter k)
  | .setDmcLoopFlag b => c.onDmc (fun d => ({ d with loopFlag := b } : Dmc).afterSetter k)
  | .setIrqEnabledFlag b => c.onDmc (Dmc.setIrqEnabled b)
  | .setDirectOutputLevel v => c.onDmc (fun d => ({ d with directOutputLevel := v } : Dmc).afterSetter k)
  | .setSamplesAddress a => c.onDmc (fun d => ({ d with sampleAddress := a } : Dmc).afterSetter k)
  | .setSamplesLength n => c.onDmc (fun d => ({ d with sampleLength := n } : Dmc).afterSetter k)
  | .restartSample => c.onDmc Dmc.restart
  | .clearRemainingAndSilence => c.onDmc Dmc.clearRemainingAndSilence
  | .clearIrqFlag => c.onDmc Dmc.clearIrqFlag
  | .clearChangeRequest => c.onDmc Dmc.clearChangeRequest

/-- The channel of an envelope. -/
def EnvId.chan : EnvId → ChanId
  | .p1 => .p1
  | .p2 => .p2
  | .n => .n

/-- The channel of a length counter. -/
def LcId.chan : LcId → ChanId
  | .p1 => .p1
  | .p2 => .p2
  | .t => .t
  | .n => .n

/-- The channel of a pulse. -/
def PulseId.chan : PulseId → ChanId
  | .p1 => .p1
  | .p2 => .p2

/-- The channel of a timer period. -/
def TimerId.chan : TimerId → ChanId
  | .p1 => .p1
  | .p2 => .p2
  | .t => .t

/-- The channel a call is made on (R30). -/
def Call.chan : Call → ChanId
  | .timerClock c => c
  | .reset c => c
  | .setDuty i _ => i.chan
  | .setPeriod i _ => i.chan
  | .setVolume i _ _ => i.chan
  | .setEnvLoopFlag i _ => i.chan
  | .setStartFlag i _ => i.chan
  | .envClock i => i.chan
  | .setHalt i _ => i.chan
  | .setEnabled i _ => i.chan
  | .reloadCounter i _ => i.chan
  | .decrement i => i.chan
  | .setSweeperData i _ => i.chan
  | .clockSweeper i => i.chan
  | .setLinReloadValue _ => .t
  | .setLinControlFlag _ => .t
  | .setLinReloadFlag => .t
  | .clockLinearCounter => .t
  | .setNoiseMode _ => .n
  | .setNoisePeriodIndex _ => .n
  | .setRateIndex _ => .d
  | .setDmcLoopFlag _ => .d
  | .setIrqEnabledFlag _ => .d
  | .setDirectOutputLevel _ => .d
  | .setSamplesAddress _ => .d
  | .setSamplesLength _ => .d
  | .restartSample => .d
  | .clearRemainingAndSilence => .d
  | .clearIrqFlag => .d
  | .clearChangeRequest => .d

/-- Renews what a channel answers to `get_output`, the opaque `GetOutput_c` of its state (R31, R160, D40).
notes/assumptions/4.md. -/
def Collab.renewOutput (ch : ChanId) (c : Collab) : Collab :=
  match ch with
  | .p1 => { c with outputs := { c.outputs with p1 := Config.getOutputPulse .p1 c.p1 } }
  | .p2 => { c with outputs := { c.outputs with p2 := Config.getOutputPulse .p2 c.p2 } }
  | .t => { c with outputs := { c.outputs with t := Config.getOutputTriangle c.t } }
  | .n => { c with outputs := { c.outputs with n := Config.getOutputNoise c.n } }
  | .d => { c with outputs := { c.outputs with d := c.d.getOutput } }

/-- Whether a call may change what its channel answers to `get_output`: CLRQ's call may not, since two MIXes with no
CLOCK, write or DMC step between them return the same value (R160). notes/assumptions/21.md. -/
def Call.mayChangeOutput : Call → Bool
  | .clearChangeRequest => false
  | _ => true

/-- A collaborator call: its effect on the unit, after which the channel's answer to `get_output` is that of its new
state. -/
def Collab.perform (k : Call) (c : Collab) : Collab :=
  match k.mayChangeOutput with
  | true => (c.applyCall k).renewOutput k.chan
  | false => c.applyCall k

/-- `call U.m(args)` (R9): the effect, and the record appended to the call trace. -/
def State.call (k : Call) (s : State) : State :=
  { s with collab := s.collab.perform k, trace := s.trace ++ [k] }

/-- Calls made in the order listed; the order is normative (R9). -/
def State.calls : List Call → State → State
  | [], s => s
  | k :: ks, s => State.calls ks (s.call k)

/-- The start of an operation: its call trace is empty and it has returned nothing (R4, R9). -/
def State.begin (s : State) : State := { s with trace := [], result := .nothing }

/-- The operation's return value (R4). -/
def State.returning (r : Result) (s : State) : State := { s with result := r }

/-- Changes the block state (R20). -/
def State.onSt (f : BlockState → BlockState) (s : State) : State := { s with st := f s.st }

/-- The environment step of the DMC (R43): the reader takes any state; nothing else of the block or of the other
collaborators changes. The trace and result of the last operation stay. notes/assumptions/9.md. -/
def State.dmcActivity (r : DmcReader) (s : State) : State :=
  { s with collab := (s.collab.onDmc (fun d => { d with reader := r })).renewOutput .d }

end Sys2Proof.Machine
end

