-- ==== Sys2Proof/Machine/Arbiter.lean ====
section
/-! DEFINITION. The Interrupt Arbiter (spec/44_interrupt_arbiter.md R170-R172). -/

namespace Sys2Proof.Machine

/-- The change-request indication (R171, R185): the OR of the latch and the DMC's flag. -/
def State.changeRequested (s : State) : Bool := s.st.irqChangeRequested || s.collab.d.reader.changeRequested

/-- The level of the IRQ line (R172, R183): the OR of the frame flag and the DMC IRQ flag. -/
def State.irqLine (s : State) : Bool := s.st.frameInterruptFlag || s.collab.d.reader.irqFlag

/-- `CLRQ` (R170): clears the latch and the reader's change request, no IRQ flag. -/
def execClrq (s : State) : Host.Outcome State Fault Refusal :=
  .next ((s.begin.onSt BlockState.clearLatch).call .clearChangeRequest)

/-- `ISCR` (R171). -/
def execIscr (s : State) : Host.Outcome State Fault Refusal := .next (s.begin.returning (.bool s.changeRequested))

/-- `PIN` (R172): level-sensitive; reading it clears nothing. -/
def execPin (s : State) : Host.Outcome State Fault Refusal := .next (s.begin.returning (.bool s.irqLine))

end Sys2Proof.Machine
end

