-- ==== Sys2Proof/Machine/Operands.lean ====
section
/-! DEFINITION. The fields of the data byte of each register write (spec/30_encoding.md R79-R92), and the two ways a
period is assembled from the old period and the byte (R62, R81, R82, R99). Every field is unsigned. -/

namespace Sys2Proof.Machine

/-- R79 `duty`, bits 7:6. -/
def dutyField (d : Byte) : BitVec 2 := d.extractLsb' 6 2

/-- R79, R84 `halt_loop`, bit 5: one bit that drives two flags. -/
def haltLoopField (d : Byte) : Bool := d.getLsbD 5

/-- R79, R84 `const`, bit 4. -/
def constField (d : Byte) : Bool := d.getLsbD 4

/-- R79, R84 `vol`, bits 3:0. -/
def volField (d : Byte) : BitVec 4 := d.extractLsb' 0 4

/-- R82, R86 `len`, bits 7:3: the length-counter table index. -/
def lenField (d : Byte) : BitVec 5 := d.extractLsb' 3 5

/-- R82 `thi`, bits 2:0: period bits 10:8. -/
def thiField (d : Byte) : BitVec 3 := d.extractLsb' 0 3

/-- R83 `ctrl`, bit 7. -/
def triCtrlField (d : Byte) : Bool := d.getLsbD 7

/-- R83 `lin`, bits 6:0. -/
def linField (d : Byte) : BitVec 7 := d.extractLsb' 0 7

/-- R85 `nmode`, bit 7. -/
def noiseModeField (d : Byte) : Bool := d.getLsbD 7

/-- R85 `nper`, bits 3:0. -/
def noisePeriodField (d : Byte) : BitVec 4 := d.extractLsb' 0 4

/-- R87 `irqen`, bit 7. -/
def irqEnField (d : Byte) : Bool := d.getLsbD 7

/-- R87 `loop`, bit 6. -/
def dmcLoopField (d : Byte) : Bool := d.getLsbD 6

/-- R87 `rate`, bits 3:0. -/
def rateField (d : Byte) : BitVec 4 := d.extractLsb' 0 4

/-- R88 `dlev`, bits 6:0. -/
def directLevelField (d : Byte) : BitVec 7 := d.extractLsb' 0 7

/-- R91: the enable bit of a length-counted channel, in slot order. -/
def enableField (i : LcId) (d : Byte) : Bool :=
  match i with
  | .p1 => d.getLsbD 0
  | .p2 => d.getLsbD 1
  | .t => d.getLsbD 2
  | .n => d.getLsbD 3

/-- R91 `en_d`, bit 4. -/
def dmcEnableField (d : Byte) : Bool := d.getLsbD 4

/-- R92 `m5`, bit 7: 1 selects the five-step mode. -/
def modeField (d : Byte) : Mode := if d.getLsbD 7 then .fiveStep else .fourStep

/-- R92 `inh`, bit 6. -/
def inhibitField (d : Byte) : Bool := d.getLsbD 6

/-- R103: a timer-low write replaces period bits 7:0. -/
def periodWithLow (v : BitVec 16) (d : Byte) : BitVec 16 := v.extractLsb' 8 8 ++ d

/-- R104: a timer-high write replaces period bits 10:8 and keeps bits 15:11 and 7:0. -/
def periodWithHigh (v : BitVec 16) (d : Byte) : BitVec 16 :=
  v.extractLsb' 11 5 ++ thiField d ++ v.extractLsb' 0 8

end Sys2Proof.Machine
end

