-- ==== Sys2Proof/Machine/Sequencer.lean ====
section
/-! DEFINITION. CLOCK and the frame sequencer (spec/42_frame_sequencer.md R140-R148). -/

namespace Sys2Proof.Machine

/-- The calls of `QuarterFrame` (R146). -/
def quarterFrameCalls : List Call := [.envClock .p1, .envClock .p2, .envClock .n, .clockLinearCounter]

/-- The calls of `HalfFrame` (R147). -/
def halfFrameCalls : List Call :=
  [.decrement .p1, .decrement .p2, .decrement .t, .decrement .n, .clockSweeper .p1, .clockSweeper .p2]

/-- The five timer clocks of a CLOCK, in slot order (R140). -/
def timerClockCalls : List Call :=
  [.timerClock .p1, .timerClock .p2, .timerClock .t, .timerClock .n, .timerClock .d]

/-- `QuarterFrame()` (R146). -/
def quarterFrame (s : State) : State := s.calls quarterFrameCalls

/-- `HalfFrame()` (R147). -/
def halfFrame (s : State) : State := s.calls halfFrameCalls

/-- Sets `st.cycle`. -/
def BlockState.setCycle (c : BitVec 16) (st : BlockState) : BlockState := { st with cycle := c }

/-- Sets `st.reset_delay`. -/
def BlockState.setDelay (r : ResetDelay) (st : BlockState) : BlockState := { st with resetDelay := r }

/-- `DelayStep()` (R142): the case is decided on the delay at the start of the CLOCK, the mode on the mode as it is
now. -/
def delayStep (s : State) : State :=
  match s.st.resetDelay with
  | .idle => s
  | .pending 0 =>
    let s1 := s.onSt (BlockState.setCycle 0)
    let s2 := match s1.st.mode with
      | .fiveStep => halfFrame (quarterFrame s1)
      | .fourStep => s1
    s2.onSt (BlockState.setDelay .idle)
  | .pending 1 => s.onSt (BlockState.setDelay (.pending 0))
  | .pending 2 => s.onSt (BlockState.setDelay (.pending 1))

/-- The increment of R141, modulo 2^16. -/
def incrementCycle (s : State) : State := s.onSt (fun st => st.setCycle (st.cycle + 1))

/-- `EventCheck()` (R143), exact equality on the incremented count. -/
def eventCheck (s : State) : State :=
  let c := s.st.cycle
  if c = Config.q1 ∨ c = Config.q3 then quarterFrame s
  else if c = Config.q2 then halfFrame (quarterFrame s)
  else if s.st.mode = .fourStep ∧ c = Config.t4 then
    ((halfFrame (quarterFrame s)).onSt BlockState.frameIrq).onSt (BlockState.setCycle 0)
  else if s.st.mode = .fiveStep ∧ c = Config.t5 then
    (halfFrame (quarterFrame s)).onSt (BlockState.setCycle 0)
  else s

/-- `SequencerStep()` (R141). -/
def sequencerStep (s : State) : State := eventCheck (incrementCycle (delayStep s))

/-- `CLK` (R140). -/
def execClk (s : State) : Host.Outcome State Fault Refusal :=
  .next (sequencerStep (s.begin.calls timerClockCalls))

end Sys2Proof.Machine
end

