-- ==== Sys2Proof/Machine/Control.lean ====
section
/-! DEFINITION. Writes of the status and frame-counter registers (spec/40_register_writes.md R121, R122). -/

namespace Sys2Proof.Machine

/-- The DMC part of a status write (R121): silenced when disabled; restarted when enabled with no bytes left; else left
alone. -/
def dmcEnable (d : Byte) (s : State) : State :=
  if dmcEnableField d then
    if s.collab.d.remainingMoreThan0 then s else s.call .restartSample
  else s.call .clearRemainingAndSilence

/-- `WR $4015` (R121; layout R91). -/
def execWrStatus (d : Byte) (s : State) : Host.Outcome State Fault Refusal :=
  .next ((dmcEnable d (s.begin.calls
    [.setEnabled .p1 (enableField .p1 d), .setEnabled .p2 (enableField .p2 d),
     .setEnabled .t (enableField .t d), .setEnabled .n (enableField .n d)])).call .clearIrqFlag)

/-- The mode and inhibit a frame-counter write assigns, and the clear of the flag with bit 6 (R122). -/
def BlockState.writeFrameCounter (d : Byte) (st : BlockState) : BlockState :=
  let st1 := { st with mode := modeField d, interruptInhibit := inhibitField d }
  if inhibitField d then st1.clearFrameFlag else st1

/-- `WR $4017` (R122; layout R92): with bit 7 the quarter- and half-frame events fire at once; without it the delayed
reset is armed, whatever its state was. -/
def execWrFramecnt (d : Byte) (s : State) : Host.Outcome State Fault Refusal :=
  let s1 := s.begin.onSt (BlockState.writeFrameCounter d)
  .next (match modeField d with
    | .fiveStep => halfFrame (quarterFrame s1)
    | .fourStep => s1.onSt (BlockState.setDelay (.pending 2)))

end Sys2Proof.Machine
end

