-- ==== Sys2Proof/Machine/Dmc.lean ====
section
/-! DEFINITION. Register writes to the DMC (spec/40_register_writes.md R117-R120). -/

namespace Sys2Proof.Machine

/-- `WR $4010` (R117; layout R87). -/
def execWrDmcctrl (d : Byte) (s : State) : Host.Outcome State Fault Refusal :=
  .next (s.begin.calls
    [.setRateIndex (rateField d), .setDmcLoopFlag (dmcLoopField d), .setIrqEnabledFlag (irqEnField d)])

/-- `WR $4011` (R118; layout R88): bit 7 is masked off. -/
def execWrDmcload (d : Byte) (s : State) : Host.Outcome State Fault Refusal :=
  .next (s.begin.call (.setDirectOutputLevel (directLevelField d)))

/-- `WR $4012` (R119; layout R89). -/
def execWrDmcaddr (d : Byte) (s : State) : Host.Outcome State Fault Refusal :=
  .next (s.begin.call (.setSamplesAddress d))

/-- `WR $4013` (R120; layout R90). -/
def execWrDmclen (d : Byte) (s : State) : Host.Outcome State Fault Refusal :=
  .next (s.begin.call (.setSamplesLength d))

end Sys2Proof.Machine
end

