-- ==== Sys2Proof/Machine/Fp.lean ====
section
/-! DEFINITION. IEEE 754 values and the operations the Mixer uses, each one correctly rounded, round-to-nearest-even
(spec/43_mixer.md R162). Exact results are computed over the integers and rounded once. -/

namespace Sys2Proof.Machine

/-- An IEEE 754 value: a finite one is `±m · 2^e`. -/
inductive Fp where
  | nan
  | inf (neg : Bool)
  | fin (neg : Bool) (m : Nat) (e : Int)
  deriving DecidableEq, Repr, Inhabited

/-- The precision in bits. -/
def MixFormat.prec : MixFormat → Nat
  | .binary32 => 24
  | .binary64 => 53

/-- The exponent of the least positive value. -/
def MixFormat.minExp : MixFormat → Int
  | .binary32 => -149
  | .binary64 => -1074

/-- The exponent of the last place of the greatest finite values. -/
def MixFormat.maxExp : MixFormat → Int
  | .binary32 => 104
  | .binary64 => 971

/-- `m · 2^e` for `e ≥ 0`, else `m`. -/
def scaleUp (m : Nat) (e : Int) : Nat := m <<< e.toNat

/-- `⌊log₂ (num / den)⌋` for positive `num` and `den`. -/
def floorLog2 (num den : Nat) : Int :=
  let k : Int := (Nat.log2 num : Int) - (Nat.log2 den : Int)
  if scaleUp den k ≤ scaleUp num (-k) then k else k - 1

/-- The integer nearest to `num / den`, ties to even. -/
def roundDiv (num den : Nat) : Nat :=
  let q := num / den
  let r := num % den
  if 2 * r < den then q
  else if den < 2 * r then q + 1
  else if q % 2 = 0 then q else q + 1

/-- The value of the format nearest to `± num / den`, ties to even; past the greatest finite value, infinity. -/
def Fp.round (f : MixFormat) (neg : Bool) (num den : Nat) : Fp :=
  if num = 0 then .fin neg 0 f.minExp
  else
    let q := max (floorLog2 num den - (f.prec - 1 : Nat)) f.minExp
    let m := roundDiv (scaleUp num (-q)) (scaleUp den q)
    if f.maxExp < q ∨ (q = f.maxExp ∧ 1 <<< f.prec ≤ m) then .inf neg else .fin neg m q

/-- The value of the format nearest to `± m · 2^e`. -/
def Fp.roundScaled (f : MixFormat) (neg : Bool) (m : Nat) (e : Int) : Fp :=
  Fp.round f neg (scaleUp m e) (scaleUp 1 (-e))

/-- The integer coefficient of `± m · 2^e` at the exponent `e0 ≤ e`. -/
def coefAt (neg : Bool) (m : Nat) (e e0 : Int) : Int :=
  if neg then -(scaleUp m (e - e0) : Int) else (scaleUp m (e - e0) : Int)

/-- IEEE addition. An exact zero sum is `-0` only when both operands are negative zeros. -/
def Fp.add (f : MixFormat) : Fp → Fp → Fp
  | .fin s m e, .fin s' m' e' =>
    let e0 := min e e'
    let c := coefAt s m e e0 + coefAt s' m' e' e0
    if c = 0 then .fin (s && s') 0 f.minExp
    else Fp.roundScaled f (c < 0) c.natAbs e0
  | .inf s, .inf s' => if s = s' then .inf s else .nan
  | .inf s, .fin _ _ _ => .inf s
  | .fin _ _ _, .inf s => .inf s
  | .nan, _ => .nan
  | _, .nan => .nan

/-- IEEE division. A finite nonzero value over a zero is an infinity, a zero over a zero is NaN. -/
def Fp.div (f : MixFormat) : Fp → Fp → Fp
  | .fin s m e, .fin s' m' e' =>
    if m' = 0 then (if m = 0 then .nan else .inf (s != s'))
    else Fp.round f (s != s') (scaleUp m (e - e')) (scaleUp m' (e' - e))
  | .inf s, .fin s' _ _ => .inf (s != s')
  | .fin s _ _, .inf s' => .fin (s != s') 0 f.minExp
  | .inf _, .inf _ => .nan
  | .nan, _ => .nan
  | _, .nan => .nan

/-- IEEE equality with zero: `-0.0` is equal to 0 (R163). -/
def Fp.isZero : Fp → Bool
  | .fin _ m _ => m == 0
  | _ => false

/-- A value that is finite, not NaN and in `[0, bound]` (R164); `-0.0` is in. -/
def Fp.inRange (bound : Nat) : Fp → Bool
  | .fin neg m e => m == 0 || (!neg && scaleUp m e ≤ scaleUp bound (-e))
  | _ => false

/-- A literal of the Mixer, `num / den`, rounded to the format (R162). -/
def Fp.lit (f : MixFormat) (num den : Nat) : Fp := Fp.round f false num den

/-- The exact value of a finite datum; NaN and the infinities have none. -/
def Fp.toRat? : Fp → Option Rat
  | .fin neg m e => some ((if neg then -1 else 1) * m * (2 : Rat) ^ e)
  | _ => none

/-- The exact value of a finite datum, 0 for the others. -/
def Fp.value (x : Fp) : Rat := x.toRat?.getD 0

/-- Reads the binary64 datum of an amplitude. -/
def Fp.unpack (a : Amp) : Fp :=
  let neg := a.getLsbD 63
  let ex := (a.extractLsb' 52 11).toNat
  let frac := (a.extractLsb' 0 52).toNat
  if ex = 2047 then (if frac = 0 then .inf neg else .nan)
  else if ex = 0 then .fin neg frac (-1074)
  else .fin neg (2 ^ 52 + frac) ((ex : Int) - 1075)

/-- The binary64 datum from its three parts. -/
def packBits (neg : Bool) (ex frac : Nat) : Amp :=
  BitVec.ofBool neg ++ BitVec.ofNat 11 ex ++ BitVec.ofNat 52 frac

/-- The binary64 datum of a value of either format; NaN is the quiet NaN of payload 0. -/
def Fp.pack : Fp → Amp
  | .nan => packBits false 2047 (2 ^ 51)
  | .inf neg => packBits neg 2047 0
  | .fin neg m e =>
    if m = 0 then packBits neg 0 0
    else
      match Fp.roundScaled .binary64 neg m e with
      | .fin _ m' e' =>
        if m' < 2 ^ 52 then packBits neg 0 m'
        else if m' = 2 ^ 53 then packBits neg (e' + 1076).toNat 0
        else packBits neg (e' + 1075).toNat (m' - 2 ^ 52)
      | .inf _ => packBits neg 2047 0
      | .nan => packBits false 2047 (2 ^ 51)

/-- A binary64 datum that is also a binary32 value (NaN and the infinities are). -/
def Fp.isBinary32 : Fp → Bool
  | .fin neg m e => (Fp.roundScaled .binary32 neg m e).pack == (Fp.fin neg m e).pack
  | _ => true

/-- A datum is a value of the format: every datum is a binary64 value. -/
def Fp.isOf (f : MixFormat) (x : Fp) : Bool := x.isBinary32 || f == .binary64

end Sys2Proof.Machine
end

