-- ==== Sys2Proof/Machine/Mixer.lean ====
section
/-! DEFINITION. The Mixer and MIX (spec/43_mixer.md R160-R165). -/

namespace Sys2Proof.Machine

/-- `pulse_out` (R161) evaluated in a format (R162). Where R163 denies that a step overflows or divides by zero and the
evaluation of R162 has it so (inputs very near 0), this follows R162. DEDUCED, unsafe: notes/assumptions/11.md. -/
def pulseOut (f : MixFormat) (p1 p2 : Fp) : Fp :=
  if p1.isZero && p2.isZero then .fin false 0 f.minExp
  else
    Fp.div f (Fp.lit f 9588 100) (Fp.add f (Fp.div f (Fp.lit f 8128 1) (Fp.add f p1 p2)) (Fp.lit f 100 1))

/-- `tnd_out` (R161) evaluated in a format; the three-term sum is left-associated (R162). For inputs very near 0 as
`pulseOut`. DEDUCED, unsafe: notes/assumptions/11.md. -/
def tndOut (f : MixFormat) (t n d : Fp) : Fp :=
  if t.isZero && n.isZero && d.isZero then .fin false 0 f.minExp
  else
    Fp.div f (Fp.lit f 15979 100)
      (Fp.add f
        (Fp.div f (Fp.lit f 1 1)
          (Fp.add f (Fp.add f (Fp.div f t (Fp.lit f 8227 1)) (Fp.div f n (Fp.lit f 12241 1)))
            (Fp.div f d (Fp.lit f 22638 1))))
        (Fp.lit f 100 1))

/-- `Mixer(p1, p2, t, n, d)` (R161) evaluated in a format (R162). -/
def mixer (f : MixFormat) (p1 p2 t n d : Fp) : Fp := Fp.add f (pulseOut f p1 p2) (tndOut f t n d)

/-- `pulse_out` over the reals (R161), on rational amplitudes. -/
def pulseOutExact (p1 p2 : Rat) : Rat :=
  if p1 = 0 ∧ p2 = 0 then 0 else (9588 / 100) / (8128 / (p1 + p2) + 100)

/-- `tnd_out` over the reals (R161), on rational amplitudes. -/
def tndOutExact (t n d : Rat) : Rat :=
  if t = 0 ∧ n = 0 ∧ d = 0 then 0
  else (15979 / 100) / (1 / (t / 8227 + n / 12241 + d / 22638) + 100)

/-- `Mixer(p1, p2, t, n, d)` over the reals (R161), on rational amplitudes. -/
def mixerExact (p1 p2 t n d : Rat) : Rat := pulseOutExact p1 p2 + tndOutExact t n d

/-- `InContract(p1, p2, t, n, d)` (R164). -/
def inContract (p1 p2 t n d : Fp) : Bool :=
  p1.inRange 15 && p2.inRange 15 && t.inRange 15 && n.inRange 15 && d.inRange 127

/-- The five answers are values of the format (R162 "the inputs are taken as given in the format").
notes/assumptions/10.md. -/
def Outputs.areOf (f : MixFormat) (o : Outputs) : Bool :=
  (Fp.unpack o.p1).isOf f && (Fp.unpack o.p2).isOf f && (Fp.unpack o.t).isOf f && (Fp.unpack o.n).isOf f &&
    (Fp.unpack o.d).isOf f

/-- The answers are in the Mixer's contract (R164). -/
def Outputs.inContract (o : Outputs) : Bool :=
  Machine.inContract (Fp.unpack o.p1) (Fp.unpack o.p2) (Fp.unpack o.t) (Fp.unpack o.n) (Fp.unpack o.d)

/-- The sample of the five answers (R160, R161, R162). -/
def Outputs.sample (f : MixFormat) (o : Outputs) : Amp :=
  (mixer f (Fp.unpack o.p1) (Fp.unpack o.p2) (Fp.unpack o.t) (Fp.unpack o.n) (Fp.unpack o.d)).pack

/-- The value of R161 for the five answers, over the reals; answers in contract are finite. -/
def Outputs.exact (o : Outputs) : Rat :=
  mixerExact (Fp.unpack o.p1).value (Fp.unpack o.p2).value (Fp.unpack o.t).value (Fp.unpack o.n).value
    (Fp.unpack o.d).value

/-- How far a sample may lie from the value `e` of R161: the relative 1e-6 of R162, and 1e-30, because inputs very near 0
take the evaluation of R162 itself further off than that (notes/assumptions/10.md, 11.md). -/
def mixTolerance (e : Rat) : Rat := e / 10 ^ 6 + 1 / 10 ^ 30

/-- A sample that an evaluation conforming to R162 may give: a value of the format (R162), in [0, 1] (R165), within the
tolerance of R162. DESIGN CHOICE, safe: notes/assumptions/10.md. -/
def Outputs.conforming (f : MixFormat) (o : Outputs) (a : Amp) : Bool :=
  (Fp.unpack a).isOf f && (Fp.unpack a).inRange 1 &&
    decide (o.exact - mixTolerance o.exact ≤ (Fp.unpack a).value) &&
    decide ((Fp.unpack a).value ≤ o.exact + mixTolerance o.exact)

/-- The sample where the spec states none: in-contract answers that are not all values of the format. A free value, kept
to the conforming samples: where the opaque constant is none, the value of the format nearest to that of R161. DESIGN
CHOICE, safe: notes/assumptions/10.md. -/
def Outputs.unstatedSample (f : MixFormat) (o : Outputs) : Amp :=
  if o.conforming f (Config.mixUnstated o) then Config.mixUnstated o
  else (Fp.round f false o.exact.num.toNat o.exact.den).pack

/-- The sample of in-contract answers (R160, R161, R162). -/
def Outputs.mixed (f : MixFormat) (o : Outputs) : Amp := if o.areOf f then o.sample f else o.unstatedSample f

/-- `MIX` (R160): refuses amplitudes outside the contract (R164, R182); else returns the sample and changes nothing. -/
def execMix (s : State) : Host.Outcome State Fault Refusal :=
  if s.collab.outputs.inContract then
    .next (s.begin.returning (.sample (s.collab.outputs.mixed Config.mixFormat)))
  else .refused .amplitudeOutOfContract

end Sys2Proof.Machine
end

