-- ==== Sys2Proof/Machine/Noise.lean ====
section
/-! DEFINITION. Register writes to the noise channel (spec/40_register_writes.md R113-R116). -/

namespace Sys2Proof.Machine

/-- `WR $400C` (R113; layout R84): bits 7:6 are ignored. -/
def execWrNoictrl (d : Byte) (s : State) : Host.Outcome State Fault Refusal :=
  .next (s.begin.calls
    [.setVolume .n (volField d) (constField d),
     .setHalt .n (haltLoopField d),
     .setEnvLoopFlag .n (haltLoopField d),
     .setStartFlag .n true])

/-- `WR $400D` (R114): legal, no effect. -/
def execWrNoiunused (_d : Byte) (s : State) : Host.Outcome State Fault Refusal := .next s.begin

/-- `WR $400E` (R115; layout R85). -/
def execWrNoiper (d : Byte) (s : State) : Host.Outcome State Fault Refusal :=
  .next (s.begin.calls [.setNoiseMode (noiseModeField d), .setNoisePeriodIndex (noisePeriodField d)])

/-- `WR $400F` (R116; layout R86): reloads the length counter only. -/
def execWrNoilen (d : Byte) (s : State) : Host.Outcome State Fault Refusal :=
  .next (s.begin.call (.reloadCounter .n (lenField d)))

end Sys2Proof.Machine
end

