-- ==== Sys2Proof/Machine/Pulse.lean ====
section
/-! DEFINITION. Register writes to the two pulse channels (spec/40_register_writes.md R101-R108). -/

namespace Sys2Proof.Machine

/-- The channel of a pulse as a slot with an envelope. -/
def PulseId.env : PulseId → EnvId
  | .p1 => .p1
  | .p2 => .p2

/-- The channel of a pulse as a slot with a length counter. -/
def PulseId.lc : PulseId → LcId
  | .p1 => .p1
  | .p2 => .p2

/-- The channel of a pulse as a slot with a timer period. -/
def PulseId.timer : PulseId → TimerId
  | .p1 => .p1
  | .p2 => .p2

/-- Pulse control (R101, R105; layout R79): bit 5 drives the halt and the envelope loop flag; the start flag is set on
every write. -/
def pulseControl (i : PulseId) (d : Byte) (s : State) : State :=
  s.begin.calls
    [.setDuty i (dutyField d),
     .setVolume i.env (volField d) (constField d),
     .setHalt i.lc (haltLoopField d),
     .setEnvLoopFlag i.env (haltLoopField d),
     .setStartFlag i.env true]

/-- Pulse sweep (R102, R106; layout R80): the whole byte is passed. -/
def pulseSweep (i : PulseId) (d : Byte) (s : State) : State := s.begin.call (.setSweeperData i d)

/-- Timer low (R103, R107, R111; layout R81). -/
def timerLow (i : TimerId) (d : Byte) (s : State) : State :=
  s.begin.call (.setPeriod i (periodWithLow (s.collab.getPeriod i) d))

/-- The two calls every timer-high write begins with (R104, R108, R112; layout R82). -/
def timerHighCalls (i : TimerId) (l : LcId) (d : Byte) (s : State) : List Call :=
  [.setPeriod i (periodWithHigh (s.collab.getPeriod i) d), .reloadCounter l (lenField d)]

/-- Pulse timer high and length load (R104, R108). -/
def pulseTimerHigh (i : PulseId) (d : Byte) (s : State) : State :=
  s.begin.calls (timerHighCalls i.timer i.lc d s ++ [.setStartFlag i.env true, .reset i.chan])

/-- `WR $4000` (R101). -/
def execWrP1Ctrl (d : Byte) (s : State) : Host.Outcome State Fault Refusal := .next (pulseControl .p1 d s)

/-- `WR $4001` (R102). -/
def execWrP1Sweep (d : Byte) (s : State) : Host.Outcome State Fault Refusal := .next (pulseSweep .p1 d s)

/-- `WR $4002` (R103). -/
def execWrP1Tlo (d : Byte) (s : State) : Host.Outcome State Fault Refusal := .next (timerLow .p1 d s)

/-- `WR $4003` (R104). -/
def execWrP1Thi (d : Byte) (s : State) : Host.Outcome State Fault Refusal := .next (pulseTimerHigh .p1 d s)

/-- `WR $4004` (R105). -/
def execWrP2Ctrl (d : Byte) (s : State) : Host.Outcome State Fault Refusal := .next (pulseControl .p2 d s)

/-- `WR $4005` (R106). -/
def execWrP2Sweep (d : Byte) (s : State) : Host.Outcome State Fault Refusal := .next (pulseSweep .p2 d s)

/-- `WR $4006` (R107). -/
def execWrP2Tlo (d : Byte) (s : State) : Host.Outcome State Fault Refusal := .next (timerLow .p2 d s)

/-- `WR $4007` (R108). -/
def execWrP2Thi (d : Byte) (s : State) : Host.Outcome State Fault Refusal := .next (pulseTimerHigh .p2 d s)

end Sys2Proof.Machine
end

