-- ==== Sys2Proof/Machine/Reads.lean ====
section
/-! DEFINITION. Register reads (spec/41_register_reads.md R130, R131). -/

namespace Sys2Proof.Machine

/-- The queries of the four length counters answer inside their contract type 0..255 (R41). -/
def Collab.countersInContract (c : Collab) : Bool :=
  c.n.lc.inContract && c.t.lc.inContract && c.p2.lc.inContract && c.p1.lc.inContract

/-- The byte of a status read, from the state before the operation (R65, R93, R130). -/
def State.statusRead (s : State) : Byte :=
  statusByte s.collab.d.reader.irqFlag s.st.frameInterruptFlag s.collab.d.remainingMoreThan0
    s.collab.n.lc.active s.collab.t.lc.active s.collab.p2.lc.active s.collab.p1.lc.active

/-- `RD $4015` (R130): returns the byte assembled before the clear, then clears the frame flag and sets the latch. A
`counter()` answer above 255 is refused (R182). -/
def execRdStatus (s : State) : Host.Outcome State Fault Refusal :=
  if s.collab.countersInContract then
    .next ((s.begin.onSt BlockState.clearFrameFlag).returning (.byte s.statusRead))
  else .refused .collaboratorOutOfContract

/-- A read of a write-only register (R131): `$00`, no state changes and no call. -/
def readWriteOnly (s : State) : State := s.begin.returning (.byte 0)

/-- `RD $4000` (R131). -/
def execRdP1Ctrl (s : State) : Host.Outcome State Fault Refusal := .next (readWriteOnly s)

/-- `RD $4001` (R131). -/
def execRdP1Sweep (s : State) : Host.Outcome State Fault Refusal := .next (readWriteOnly s)

/-- `RD $4002` (R131). -/
def execRdP1Tlo (s : State) : Host.Outcome State Fault Refusal := .next (readWriteOnly s)

/-- `RD $4003` (R131). -/
def execRdP1Thi (s : State) : Host.Outcome State Fault Refusal := .next (readWriteOnly s)

/-- `RD $4004` (R131). -/
def execRdP2Ctrl (s : State) : Host.Outcome State Fault Refusal := .next (readWriteOnly s)

/-- `RD $4005` (R131). -/
def execRdP2Sweep (s : State) : Host.Outcome State Fault Refusal := .next (readWriteOnly s)

/-- `RD $4006` (R131). -/
def execRdP2Tlo (s : State) : Host.Outcome State Fault Refusal := .next (readWriteOnly s)

/-- `RD $4007` (R131). -/
def execRdP2Thi (s : State) : Host.Outcome State Fault Refusal := .next (readWriteOnly s)

/-- `RD $4008` (R131). -/
def execRdTrictrl (s : State) : Host.Outcome State Fault Refusal := .next (readWriteOnly s)

/-- `RD $4009` (R131). -/
def execRdTriunused (s : State) : Host.Outcome State Fault Refusal := .next (readWriteOnly s)

/-- `RD $400A` (R131). -/
def execRdTritlo (s : State) : Host.Outcome State Fault Refusal := .next (readWriteOnly s)

/-- `RD $400B` (R131). -/
def execRdTrithi (s : State) : Host.Outcome State Fault Refusal := .next (readWriteOnly s)

/-- `RD $400C` (R131). -/
def execRdNoictrl (s : State) : Host.Outcome State Fault Refusal := .next (readWriteOnly s)

/-- `RD $400D` (R131). -/
def execRdNoiunused (s : State) : Host.Outcome State Fault Refusal := .next (readWriteOnly s)

/-- `RD $400E` (R131). -/
def execRdNoiper (s : State) : Host.Outcome State Fault Refusal := .next (readWriteOnly s)

/-- `RD $400F` (R131). -/
def execRdNoilen (s : State) : Host.Outcome State Fault Refusal := .next (readWriteOnly s)

/-- `RD $4010` (R131). -/
def execRdDmcctrl (s : State) : Host.Outcome State Fault Refusal := .next (readWriteOnly s)

/-- `RD $4011` (R131). -/
def execRdDmcload (s : State) : Host.Outcome State Fault Refusal := .next (readWriteOnly s)

/-- `RD $4012` (R131). -/
def execRdDmcaddr (s : State) : Host.Outcome State Fault Refusal := .next (readWriteOnly s)

/-- `RD $4013` (R131). -/
def execRdDmclen (s : State) : Host.Outcome State Fault Refusal := .next (readWriteOnly s)

/-- `RD $4017` (R131). -/
def execRdFramecnt (s : State) : Host.Outcome State Fault Refusal := .next (readWriteOnly s)

end Sys2Proof.Machine
end

