-- ==== Sys2Proof/Machine/Triangle.lean ====
section
/-! DEFINITION. Register writes to the triangle channel (spec/40_register_writes.md R109-R112). -/

namespace Sys2Proof.Machine

/-- `WR $4008` (R109; layout R83): the control flag also drives the length-counter halt under `TRI_HALT_FROM_CTRL`. -/
def execWrTrictrl (d : Byte) (s : State) : Host.Outcome State Fault Refusal :=
  .next (s.begin.calls
    ([.setLinControlFlag (triCtrlField d), .setLinReloadValue (linField d)] ++
      (if Config.triHaltFromCtrl then [.setHalt .t (triCtrlField d)] else [])))

/-- `WR $4009` (R110): legal, no effect. -/
def execWrTriunused (_d : Byte) (s : State) : Host.Outcome State Fault Refusal := .next s.begin

/-- `WR $400A` (R111). -/
def execWrTritlo (d : Byte) (s : State) : Host.Outcome State Fault Refusal := .next (timerLow .t d s)

/-- `WR $400B` (R112): no envelope and no phase reset; the linear counter's reload flag is set. -/
def execWrTrithi (d : Byte) (s : State) : Host.Outcome State Fault Refusal :=
  .next (s.begin.calls (timerHighCalls .t .t d s ++ [.setLinReloadFlag]))

end Sys2Proof.Machine
end

