-- ==== Sys2Proof/Syntax.lean ====
section
/-! DEFINITION. The instruction syntax: one constructor for each of the 49 rows of spec/opcode_table.json, and the
22 register names of spec/30_encoding.md R76. -/

namespace Sys2Proof

/-- The register enumeration of R76, in the source's order. It is closed. -/
inductive Reg where
  | p1ctrl
  | p1sweep
  | p1tlo
  | p1thi
  | p2ctrl
  | p2sweep
  | p2tlo
  | p2thi
  | trictrl
  | triunused
  | tritlo
  | trithi
  | noictrl
  | noiunused
  | noiper
  | noilen
  | dmcctrl
  | dmcload
  | dmcaddr
  | dmclen
  | status
  | framecnt
  deriving DecidableEq, Repr, Inhabited

/-- The operations of the block (R4, R75, R78). A bus write carries its data byte; every byte is legal, so every term of
this type is well formed. -/
inductive Instr where
  /-- `WR $4000, d` (R101) -/
  | wrP1Ctrl (d : Byte)
  /-- `WR $4001, d` (R102) -/
  | wrP1Sweep (d : Byte)
  /-- `WR $4002, d` (R103) -/
  | wrP1Tlo (d : Byte)
  /-- `WR $4003, d` (R104) -/
  | wrP1Thi (d : Byte)
  /-- `WR $4004, d` (R105) -/
  | wrP2Ctrl (d : Byte)
  /-- `WR $4005, d` (R106) -/
  | wrP2Sweep (d : Byte)
  /-- `WR $4006, d` (R107) -/
  | wrP2Tlo (d : Byte)
  /-- `WR $4007, d` (R108) -/
  | wrP2Thi (d : Byte)
  /-- `WR $4008, d` (R109) -/
  | wrTrictrl (d : Byte)
  /-- `WR $4009, d` (R110) -/
  | wrTriunused (d : Byte)
  /-- `WR $400A, d` (R111) -/
  | wrTritlo (d : Byte)
  /-- `WR $400B, d` (R112) -/
  | wrTrithi (d : Byte)
  /-- `WR $400C, d` (R113) -/
  | wrNoictrl (d : Byte)
  /-- `WR $400D, d` (R114) -/
  | wrNoiunused (d : Byte)
  /-- `WR $400E, d` (R115) -/
  | wrNoiper (d : Byte)
  /-- `WR $400F, d` (R116) -/
  | wrNoilen (d : Byte)
  /-- `WR $4010, d` (R117) -/
  | wrDmcctrl (d : Byte)
  /-- `WR $4011, d` (R118) -/
  | wrDmcload (d : Byte)
  /-- `WR $4012, d` (R119) -/
  | wrDmcaddr (d : Byte)
  /-- `WR $4013, d` (R120) -/
  | wrDmclen (d : Byte)
  /-- `WR $4015, d` (R121) -/
  | wrStatus (d : Byte)
  /-- `WR $4017, d` (R122) -/
  | wrFramecnt (d : Byte)
  /-- `RD $4000` (R131) -/
  | rdP1Ctrl
  /-- `RD $4001` (R131) -/
  | rdP1Sweep
  /-- `RD $4002` (R131) -/
  | rdP1Tlo
  /-- `RD $4003` (R131) -/
  | rdP1Thi
  /-- `RD $4004` (R131) -/
  | rdP2Ctrl
  /-- `RD $4005` (R131) -/
  | rdP2Sweep
  /-- `RD $4006` (R131) -/
  | rdP2Tlo
  /-- `RD $4007` (R131) -/
  | rdP2Thi
  /-- `RD $4008` (R131) -/
  | rdTrictrl
  /-- `RD $4009` (R131) -/
  | rdTriunused
  /-- `RD $400A` (R131) -/
  | rdTritlo
  /-- `RD $400B` (R131) -/
  | rdTrithi
  /-- `RD $400C` (R131) -/
  | rdNoictrl
  /-- `RD $400D` (R131) -/
  | rdNoiunused
  /-- `RD $400E` (R131) -/
  | rdNoiper
  /-- `RD $400F` (R131) -/
  | rdNoilen
  /-- `RD $4010` (R131) -/
  | rdDmcctrl
  /-- `RD $4011` (R131) -/
  | rdDmcload
  /-- `RD $4012` (R131) -/
  | rdDmcaddr
  /-- `RD $4013` (R131) -/
  | rdDmclen
  /-- `RD $4015` (R130) -/
  | rdStatus
  /-- `RD $4017` (R131) -/
  | rdFramecnt
  /-- one orchestrator clock (R140) -/
  | clk
  /-- `clear_request()` (R170) -/
  | clrq
  /-- `is_change_requested()` (R171) -/
  | iscr
  /-- `pin_state()` (R172) -/
  | pin
  /-- evaluate the Mixer (R160) -/
  | mix
  deriving DecidableEq, Repr, Inhabited

end Sys2Proof
end

