-- ==== Sys2Proof/Machine/Dispatch.lean ====
section
/-! DEFINITION. One arm per instruction: the meaning it calls. -/

namespace Sys2Proof.Machine

def exec (i : Instr) (s : State) : Host.Outcome State Fault Refusal :=
  match i with
  | .wrP1Ctrl d => Sys2Proof.Machine.execWrP1Ctrl d s
  | .wrP1Sweep d => Sys2Proof.Machine.execWrP1Sweep d s
  | .wrP1Tlo d => Sys2Proof.Machine.execWrP1Tlo d s
  | .wrP1Thi d => Sys2Proof.Machine.execWrP1Thi d s
  | .wrP2Ctrl d => Sys2Proof.Machine.execWrP2Ctrl d s
  | .wrP2Sweep d => Sys2Proof.Machine.execWrP2Sweep d s
  | .wrP2Tlo d => Sys2Proof.Machine.execWrP2Tlo d s
  | .wrP2Thi d => Sys2Proof.Machine.execWrP2Thi d s
  | .wrTrictrl d => Sys2Proof.Machine.execWrTrictrl d s
  | .wrTriunused d => Sys2Proof.Machine.execWrTriunused d s
  | .wrTritlo d => Sys2Proof.Machine.execWrTritlo d s
  | .wrTrithi d => Sys2Proof.Machine.execWrTrithi d s
  | .wrNoictrl d => Sys2Proof.Machine.execWrNoictrl d s
  | .wrNoiunused d => Sys2Proof.Machine.execWrNoiunused d s
  | .wrNoiper d => Sys2Proof.Machine.execWrNoiper d s
  | .wrNoilen d => Sys2Proof.Machine.execWrNoilen d s
  | .wrDmcctrl d => Sys2Proof.Machine.execWrDmcctrl d s
  | .wrDmcload d => Sys2Proof.Machine.execWrDmcload d s
  | .wrDmcaddr d => Sys2Proof.Machine.execWrDmcaddr d s
  | .wrDmclen d => Sys2Proof.Machine.execWrDmclen d s
  | .wrStatus d => Sys2Proof.Machine.execWrStatus d s
  | .wrFramecnt d => Sys2Proof.Machine.execWrFramecnt d s
  | .rdP1Ctrl => Sys2Proof.Machine.execRdP1Ctrl s
  | .rdP1Sweep => Sys2Proof.Machine.execRdP1Sweep s
  | .rdP1Tlo => Sys2Proof.Machine.execRdP1Tlo s
  | .rdP1Thi => Sys2Proof.Machine.execRdP1Thi s
  | .rdP2Ctrl => Sys2Proof.Machine.execRdP2Ctrl s
  | .rdP2Sweep => Sys2Proof.Machine.execRdP2Sweep s
  | .rdP2Tlo => Sys2Proof.Machine.execRdP2Tlo s
  | .rdP2Thi => Sys2Proof.Machine.execRdP2Thi s
  | .rdTrictrl => Sys2Proof.Machine.execRdTrictrl s
  | .rdTriunused => Sys2Proof.Machine.execRdTriunused s
  | .rdTritlo => Sys2Proof.Machine.execRdTritlo s
  | .rdTrithi => Sys2Proof.Machine.execRdTrithi s
  | .rdNoictrl => Sys2Proof.Machine.execRdNoictrl s
  | .rdNoiunused => Sys2Proof.Machine.execRdNoiunused s
  | .rdNoiper => Sys2Proof.Machine.execRdNoiper s
  | .rdNoilen => Sys2Proof.Machine.execRdNoilen s
  | .rdDmcctrl => Sys2Proof.Machine.execRdDmcctrl s
  | .rdDmcload => Sys2Proof.Machine.execRdDmcload s
  | .rdDmcaddr => Sys2Proof.Machine.execRdDmcaddr s
  | .rdDmclen => Sys2Proof.Machine.execRdDmclen s
  | .rdStatus => Sys2Proof.Machine.execRdStatus s
  | .rdFramecnt => Sys2Proof.Machine.execRdFramecnt s
  | .clk => Sys2Proof.Machine.execClk s
  | .clrq => Sys2Proof.Machine.execClrq s
  | .iscr => Sys2Proof.Machine.execIscr s
  | .pin => Sys2Proof.Machine.execPin s
  | .mix => Sys2Proof.Machine.execMix s

end Sys2Proof.Machine
end

