-- ==== Sys2Proof/WellFormed.lean ====
section
/-! DEFINITION. Which operation words are legal, written from the list of illegal words of spec/30_encoding.md R95 and
not from the decoder, so that the two can be held against each other; and which bus requests have a legal width.
A term of `Instr` needs no check of its own: its only operand is a data byte, and every byte is legal (R94). -/

namespace Sys2Proof

/-- R76: the addresses of the enumeration, as the span `$4000`-`$4013` and the two addresses `$4015`, `$4017`.
`$4014`, `$4016` and everything outside are not in it (R95). -/
def inEnumeration (a : BusAddr) : Bool :=
  (0x4000 ≤ a.toNat && a.toNat ≤ 0x4013) || a.toNat == 0x4015 || a.toNat == 0x4017

/-- R95: an OPW is legal when it is none of the listed illegal words. -/
def legalOpw (w : Opw) : Bool :=
  let k := (w.extractLsb' 24 2).toNat
  let a := w.extractLsb' 8 16
  let d := w.extractLsb' 0 8
  if k == 0 then inEnumeration a && d == 0
  else if k == 1 then inEnumeration a
  else if k == 2 then a == 0 && d == 0
  else a.toNat ≤ 3 && d == 0

/-- R77: a word wider than 26 bits is not an OPW; of the 26-bit words, R95 says which are legal. -/
def legalWord (w : Nat) : Bool := w < 2 ^ 26 && legalOpw (BitVec.ofNat 26 w)

/-- R61: a bus access moves exactly one byte. -/
def legalWidth (n : Nat) : Bool := n == 1

end Sys2Proof
end

