-- ==== Sys2Proof/Decode.lean ====
section
/-! DEFINITION. Decoding an operation word (spec/30_encoding.md R75-R78, R95), total on every number, and the encoder
written from the same tables. -/

namespace Sys2Proof

/-- The reasons a word is no operation (R77, R95). All are the refusal `BadOperationWord`. -/
inductive DecodeError where
  /-- wider than 26 bits (R77) -/
  | notAnOpw
  /-- K = 00 or 01 with an address outside the enumeration (R95) -/
  | addressOutsideEnumeration
  /-- a nonzero `D` where it must be zero (R95) -/
  | dataMustBeZero
  /-- K = 10 with a nonzero `A` (R95) -/
  | addressMustBeZero
  /-- K = 11 with `A > 3` (R95) -/
  | noSuchSubOperation
  deriving DecidableEq, Repr

/-- The field `K` (R75). -/
def Opw.kind (w : Opw) : BitVec 2 := w.extractLsb' 24 2

/-- The field `A` (R75). -/
def Opw.addr (w : Opw) : BusAddr := w.extractLsb' 8 16

/-- The field `D` (R75). -/
def Opw.data (w : Opw) : Byte := w.extractLsb' 0 8

/-- An OPW from its three fields (R75). -/
def Opw.make (k : BitVec 2) (a : BusAddr) (d : Byte) : Opw := k ++ a ++ d

/-- The address of a register (R76). -/
def Reg.addr : Reg → BusAddr
  | .p1ctrl => 0x4000
  | .p1sweep => 0x4001
  | .p1tlo => 0x4002
  | .p1thi => 0x4003
  | .p2ctrl => 0x4004
  | .p2sweep => 0x4005
  | .p2tlo => 0x4006
  | .p2thi => 0x4007
  | .trictrl => 0x4008
  | .triunused => 0x4009
  | .tritlo => 0x400A
  | .trithi => 0x400B
  | .noictrl => 0x400C
  | .noiunused => 0x400D
  | .noiper => 0x400E
  | .noilen => 0x400F
  | .dmcctrl => 0x4010
  | .dmcload => 0x4011
  | .dmcaddr => 0x4012
  | .dmclen => 0x4013
  | .status => 0x4015
  | .framecnt => 0x4017

/-- The 22 registers in the source's order (R76). -/
def Reg.all : List Reg :=
  [.p1ctrl, .p1sweep, .p1tlo, .p1thi,
   .p2ctrl, .p2sweep, .p2tlo, .p2thi,
   .trictrl, .triunused, .tritlo, .trithi,
   .noictrl, .noiunused, .noiper, .noilen,
   .dmcctrl, .dmcload, .dmcaddr, .dmclen,
   .status, .framecnt]

/-- The register at an address, if it is in the enumeration (R76). -/
def Reg.atAddr (a : BusAddr) : Option Reg := Reg.all.find? (fun r => r.addr == a)

/-- The bus write of a register (R76, R77). -/
def Reg.write (r : Reg) (d : Byte) : Instr :=
  match r with
  | .p1ctrl => .wrP1Ctrl d
  | .p1sweep => .wrP1Sweep d
  | .p1tlo => .wrP1Tlo d
  | .p1thi => .wrP1Thi d
  | .p2ctrl => .wrP2Ctrl d
  | .p2sweep => .wrP2Sweep d
  | .p2tlo => .wrP2Tlo d
  | .p2thi => .wrP2Thi d
  | .trictrl => .wrTrictrl d
  | .triunused => .wrTriunused d
  | .tritlo => .wrTritlo d
  | .trithi => .wrTrithi d
  | .noictrl => .wrNoictrl d
  | .noiunused => .wrNoiunused d
  | .noiper => .wrNoiper d
  | .noilen => .wrNoilen d
  | .dmcctrl => .wrDmcctrl d
  | .dmcload => .wrDmcload d
  | .dmcaddr => .wrDmcaddr d
  | .dmclen => .wrDmclen d
  | .status => .wrStatus d
  | .framecnt => .wrFramecnt d

/-- The bus read of a register (R76, R77). -/
def Reg.read : Reg → Instr
  | .p1ctrl => .rdP1Ctrl
  | .p1sweep => .rdP1Sweep
  | .p1tlo => .rdP1Tlo
  | .p1thi => .rdP1Thi
  | .p2ctrl => .rdP2Ctrl
  | .p2sweep => .rdP2Sweep
  | .p2tlo => .rdP2Tlo
  | .p2thi => .rdP2Thi
  | .trictrl => .rdTrictrl
  | .triunused => .rdTriunused
  | .tritlo => .rdTritlo
  | .trithi => .rdTrithi
  | .noictrl => .rdNoictrl
  | .noiunused => .rdNoiunused
  | .noiper => .rdNoiper
  | .noilen => .rdNoilen
  | .dmcctrl => .rdDmcctrl
  | .dmcload => .rdDmcload
  | .dmcaddr => .rdDmcaddr
  | .dmclen => .rdDmclen
  | .status => .rdStatus
  | .framecnt => .rdFramecnt

/-- Decoding a 26-bit word (R77, R78). -/
def decodeOpw (w : Opw) : Except DecodeError Instr :=
  if w.kind = 0 then
    match Reg.atAddr w.addr with
    | none => .error .addressOutsideEnumeration
    | some r => if w.data = 0 then .ok r.read else .error .dataMustBeZero
  else if w.kind = 1 then
    match Reg.atAddr w.addr with
    | none => .error .addressOutsideEnumeration
    | some r => .ok (r.write w.data)
  else if w.kind = 2 then
    if w.addr ≠ 0 then .error .addressMustBeZero
    else if w.data ≠ 0 then .error .dataMustBeZero
    else .ok .clk
  else
    if w.data ≠ 0 then .error .dataMustBeZero
    else if w.addr = 0 then .ok .clrq
    else if w.addr = 1 then .ok .iscr
    else if w.addr = 2 then .ok .pin
    else if w.addr = 3 then .ok .mix
    else .error .noSuchSubOperation

/-- Decoding, total on every number: a word wider than 26 bits is not an OPW (R77). -/
def decode (w : Nat) : Except DecodeError Instr :=
  if w < 2 ^ 26 then decodeOpw (BitVec.ofNat 26 w) else .error .notAnOpw

/-- The operation word of an instruction (R75, R76, R78). -/
def encode : Instr → Opw
  | .wrP1Ctrl d => Opw.make 1 0x4000 d
  | .wrP1Sweep d => Opw.make 1 0x4001 d
  | .wrP1Tlo d => Opw.make 1 0x4002 d
  | .wrP1Thi d => Opw.make 1 0x4003 d
  | .wrP2Ctrl d => Opw.make 1 0x4004 d
  | .wrP2Sweep d => Opw.make 1 0x4005 d
  | .wrP2Tlo d => Opw.make 1 0x4006 d
  | .wrP2Thi d => Opw.make 1 0x4007 d
  | .wrTrictrl d => Opw.make 1 0x4008 d
  | .wrTriunused d => Opw.make 1 0x4009 d
  | .wrTritlo d => Opw.make 1 0x400A d
  | .wrTrithi d => Opw.make 1 0x400B d
  | .wrNoictrl d => Opw.make 1 0x400C d
  | .wrNoiunused d => Opw.make 1 0x400D d
  | .wrNoiper d => Opw.make 1 0x400E d
  | .wrNoilen d => Opw.make 1 0x400F d
  | .wrDmcctrl d => Opw.make 1 0x4010 d
  | .wrDmcload d => Opw.make 1 0x4011 d
  | .wrDmcaddr d => Opw.make 1 0x4012 d
  | .wrDmclen d => Opw.make 1 0x4013 d
  | .wrStatus d => Opw.make 1 0x4015 d
  | .wrFramecnt d => Opw.make 1 0x4017 d
  | .rdP1Ctrl => Opw.make 0 0x4000 0
  | .rdP1Sweep => Opw.make 0 0x4001 0
  | .rdP1Tlo => Opw.make 0 0x4002 0
  | .rdP1Thi => Opw.make 0 0x4003 0
  | .rdP2Ctrl => Opw.make 0 0x4004 0
  | .rdP2Sweep => Opw.make 0 0x4005 0
  | .rdP2Tlo => Opw.make 0 0x4006 0
  | .rdP2Thi => Opw.make 0 0x4007 0
  | .rdTrictrl => Opw.make 0 0x4008 0
  | .rdTriunused => Opw.make 0 0x4009 0
  | .rdTritlo => Opw.make 0 0x400A 0
  | .rdTrithi => Opw.make 0 0x400B 0
  | .rdNoictrl => Opw.make 0 0x400C 0
  | .rdNoiunused => Opw.make 0 0x400D 0
  | .rdNoiper => Opw.make 0 0x400E 0
  | .rdNoilen => Opw.make 0 0x400F 0
  | .rdDmcctrl => Opw.make 0 0x4010 0
  | .rdDmcload => Opw.make 0 0x4011 0
  | .rdDmcaddr => Opw.make 0 0x4012 0
  | .rdDmclen => Opw.make 0 0x4013 0
  | .rdStatus => Opw.make 0 0x4015 0
  | .rdFramecnt => Opw.make 0 0x4017 0
  | .clk => Opw.make 2 0x0000 0
  | .clrq => Opw.make 3 0x0000 0
  | .iscr => Opw.make 3 0x0001 0
  | .pin => Opw.make 3 0x0002 0
  | .mix => Opw.make 3 0x0003 0

/-- The instruction the decoder reads from a table word `w` of `nbits` bits; bits above `nbits` are 0. An operation is
one word, its bit 0 the least significant, so no byte order is involved (R62, R96). notes/assumptions/18.md. -/
def decodeTableWord (nbits w : Nat) : Option Instr :=
  match decode (w % 2 ^ nbits) with
  | .ok i => some i
  | .error _ => none

end Sys2Proof
end

