-- ==== Sys2Proof/Machine/Fetch.lean ====
section
/-! DEFINITION. Taking the next entry of the stream of operations (spec/20_memory.md R60, R61, R68;
spec/30_encoding.md R77; spec/40_register_writes.md R100). -/

namespace Sys2Proof.Machine

/-- What the next entry of the schedule asks of the block. -/
inductive Fetched where
  /-- nothing is issued -/
  | idle
  /-- the DMC's environment step, in the state without that entry -/
  | activity (r : DmcReader) (s : State)
  /-- an operation, in the state without that entry -/
  | run (i : Instr) (s : State)
  /-- a request outside the block's contract (R181) -/
  | reject (r : Refusal)
  deriving DecidableEq, Repr

/-- An operation word, decoded; an illegal word is refused (R77, R95). -/
def fetchWord (w : Nat) (s : State) : Fetched :=
  match decode w with
  | .ok i => .run i s
  | .error _ => .reject .badOperationWord

/-- A bus write of the bytes listed: exactly one (R61), then the write's operation word (R9, R100). -/
def fetchBusWrite (a : BusAddr) (bytes : List Byte) (s : State) : Fetched :=
  match bytes with
  | [d] => fetchWord (Opw.make 1 a d).toNat s
  | _ => .reject .widthNotOne

/-- A bus read of `n` bytes: exactly one (R61), then the read's operation word (R9). -/
def fetchBusRead (a : BusAddr) (n : Nat) (s : State) : Fetched :=
  if legalWidth n then fetchWord (Opw.make 0 a 0).toNat s else .reject .widthNotOne

/-- Takes the next entry of the schedule (R68). notes/assumptions/1.md. -/
def fetch (s : State) : Fetched :=
  match s.schedule with
  | [] => .idle
  | .word w :: rest => fetchWord w { s with schedule := rest }
  | .busWrite a bytes :: rest => fetchBusWrite a bytes { s with schedule := rest }
  | .busRead a n :: rest => fetchBusRead a n { s with schedule := rest }
  | .dmcActivity r :: rest => .activity r { s with schedule := rest }

/-- The state when nothing is issued: as it was. notes/assumptions/2.md. -/
def idleStep (s : State) : State := s

/-- The host issues a word as the next operation. -/
def State.issue (w : Nat) (s : State) : State := { s with schedule := .word w :: s.schedule }

end Sys2Proof.Machine
end

