-- ==== Sys2Proof/Machine/Step.lean ====
section
/-! DEFINITION. One step: the next entry of the stream of operations, whole and alone (spec/00_scope.md R10,
spec/20_memory.md R68). -/

namespace Sys2Proof.Machine

/-- One step of the machine: an operation as `exec` gives it, a DMC environment step, a refusal (R181), or, with nothing
issued, no change. -/
def step (s : State) : Host.Outcome State Fault Refusal :=
  match fetch s with
  | .idle => .next (idleStep s)
  | .activity r s' => .next (s'.dmcActivity r)
  | .run i s' => exec i s'
  | .reject r => .refused r

/-- `s` with the table word `w` of `nbits` bits issued as its next operation. notes/assumptions/1.md, 18.md. -/
def State.withFetchWord (s : State) (nbits w : Nat) : State := s.issue (w % 2 ^ nbits)

end Sys2Proof.Machine
end

