-- ==== Sys2Proof/Machine/Assembler.lean ====
section
/-! DEFINITION. The assembler of the spec (spec/30_encoding.md R97, R98): a line of text to operation words. Text is a
list of characters. notes/assumptions/19.md says which points of the text form are the model's. -/

namespace Sys2Proof.Machine

/-- An address operand: a register name stands for its address (R97). -/
inductive AsmAddr where
  | name (r : Reg)
  | num (a : BusAddr)
  deriving DecidableEq, Repr

/-- One line of assembly (R97); `clk n` is the pseudo-instruction `CLK n` (R98), `CLK` alone is `clk 1`. -/
inductive AsmLine where
  | wr (a : AsmAddr) (d : Byte)
  | rd (a : AsmAddr)
  | clk (n : Nat)
  | clrq
  | iscr
  | pin
  | mix
  deriving DecidableEq, Repr

/-- The address an operand stands for (R97, R98). -/
def AsmAddr.value : AsmAddr → BusAddr
  | .name r => r.addr
  | .num a => a

/-- The operation words of a line (R75, R97, R98). -/
def AsmLine.assemble : AsmLine → List Opw
  | .wr a d => [Opw.make 1 a.value d]
  | .rd a => [Opw.make 0 a.value 0]
  | .clk n => List.replicate n (Opw.make 2 0 0)
  | .clrq => [Opw.make 3 0 0]
  | .iscr => [Opw.make 3 1 0]
  | .pin => [Opw.make 3 2 0]
  | .mix => [Opw.make 3 3 0]

/-- The name of a register in assembly text (R76). -/
def Reg.asmName : Reg → List Char
  | .p1ctrl => ['P', '1', 'C', 'T', 'R', 'L']
  | .p1sweep => ['P', '1', 'S', 'W', 'E', 'E', 'P']
  | .p1tlo => ['P', '1', 'T', 'L', 'O']
  | .p1thi => ['P', '1', 'T', 'H', 'I']
  | .p2ctrl => ['P', '2', 'C', 'T', 'R', 'L']
  | .p2sweep => ['P', '2', 'S', 'W', 'E', 'E', 'P']
  | .p2tlo => ['P', '2', 'T', 'L', 'O']
  | .p2thi => ['P', '2', 'T', 'H', 'I']
  | .trictrl => ['T', 'R', 'I', 'C', 'T', 'R', 'L']
  | .triunused => ['T', 'R', 'I', 'U', 'N', 'U', 'S', 'E', 'D']
  | .tritlo => ['T', 'R', 'I', 'T', 'L', 'O']
  | .trithi => ['T', 'R', 'I', 'T', 'H', 'I']
  | .noictrl => ['N', 'O', 'I', 'C', 'T', 'R', 'L']
  | .noiunused => ['N', 'O', 'I', 'U', 'N', 'U', 'S', 'E', 'D']
  | .noiper => ['N', 'O', 'I', 'P', 'E', 'R']
  | .noilen => ['N', 'O', 'I', 'L', 'E', 'N']
  | .dmcctrl => ['D', 'M', 'C', 'C', 'T', 'R', 'L']
  | .dmcload => ['D', 'M', 'C', 'L', 'O', 'A', 'D']
  | .dmcaddr => ['D', 'M', 'C', 'A', 'D', 'D', 'R']
  | .dmclen => ['D', 'M', 'C', 'L', 'E', 'N']
  | .status => ['S', 'T', 'A', 'T', 'U', 'S']
  | .framecnt => ['F', 'R', 'A', 'M', 'E', 'C', 'N', 'T']

/-- A token that is complete, if any characters were read. -/
def flushToken (cur : List Char) : List (List Char) := if cur.isEmpty then [] else [cur.reverse]

/-- The tokens of a line: words and commas; `;` starts a comment (R97). What is a blank: DESIGN CHOICE, safe:
notes/assumptions/19.md. -/
def tokenize : List Char → List Char → List (List Char)
  | [], cur => flushToken cur
  | c :: cs, cur =>
    if c = ';' then flushToken cur
    else if c = ' ' ∨ c = '\t' ∨ c = '\r' then flushToken cur ++ tokenize cs []
    else if c = ',' then flushToken cur ++ [[',']] ++ tokenize cs []
    else tokenize cs (c :: cur)

/-- The value of a decimal digit. -/
def decDigit (c : Char) : Option Nat :=
  if '0'.toNat ≤ c.toNat ∧ c.toNat ≤ '9'.toNat then some (c.toNat - '0'.toNat) else none

/-- The value of a hexadecimal digit. -/
def hexDigit (c : Char) : Option Nat :=
  if 'A'.toNat ≤ c.toNat ∧ c.toNat ≤ 'F'.toNat then some (c.toNat - 'A'.toNat + 10)
  else if 'a'.toNat ≤ c.toNat ∧ c.toNat ≤ 'f'.toNat then some (c.toNat - 'a'.toNat + 10)
  else decDigit c

/-- A number from its digits, most significant first. -/
def digitsValue (base : Nat) (digit : Char → Option Nat) : List Char → Nat → Option Nat
  | [], acc => some acc
  | c :: cs, acc => (digit c).bind (fun v => digitsValue base digit cs (acc * base + v))

/-- A number: `$hh` or `$hhhh` in hex, or decimal (R97). The count of digits and their case: DESIGN CHOICE, safe:
notes/assumptions/19.md. -/
def parseNumber : List Char → Option Nat
  | '$' :: hs => if hs.length = 2 ∨ hs.length = 4 then digitsValue 16 hexDigit hs 0 else none
  | [] => none
  | ds => digitsValue 10 decDigit ds 0

/-- A byte operand: a number in any form of R97, `$hhhh` too, below 256. DESIGN CHOICE, safe: notes/assumptions/19.md. -/
def parseByte (tok : List Char) : Option Byte :=
  (parseNumber tok).bind (fun v => if v < 256 then some (BitVec.ofNat 8 v) else none)

/-- An address operand: a register name of R76, or a number. R97 writes `$hhhh` here; the model also takes the other number
forms of R97, `$hh` and decimal, below 65536. DESIGN CHOICE, safe: notes/assumptions/19.md. -/
def parseAddr (tok : List Char) : Option AsmAddr :=
  match Reg.all.find? (fun r => Reg.asmName r == tok) with
  | some r => some (.name r)
  | none => (parseNumber tok).bind (fun v => if v < 65536 then some (.num (BitVec.ofNat 16 v)) else none)

/-- One line from its tokens (R97, R98). A line with no token assembles to nothing, and the count of `CLK n` is a number in
any form of R97: DESIGN CHOICE, safe: notes/assumptions/19.md. -/
def parseLine : List (List Char) → Option (List AsmLine)
  | [] => some []
  | [tok] =>
    if tok = ['C', 'L', 'K'] then some [.clk 1]
    else if tok = ['C', 'L', 'R', 'Q'] then some [.clrq]
    else if tok = ['I', 'S', 'C', 'R'] then some [.iscr]
    else if tok = ['P', 'I', 'N'] then some [.pin]
    else if tok = ['M', 'I', 'X'] then some [.mix]
    else none
  | [tok, x] =>
    if tok = ['R', 'D'] then (parseAddr x).map (fun a => [.rd a])
    else if tok = ['C', 'L', 'K'] then
      (parseNumber x).bind (fun n => if 1 ≤ n then some [.clk n] else none)
    else none
  | [tok, x, comma, y] =>
    if tok = ['W', 'R'] ∧ comma = [','] then
      (parseAddr x).bind (fun a => (parseByte y).map (fun d => [.wr a d]))
    else none
  | _ => none

/-- The operation words of one line of text, if it is a line of R97. -/
def assembleLine (text : List Char) : Option (List Opw) :=
  (parseLine (tokenize text [])).map (fun ls => ls.flatMap AsmLine.assemble)

end Sys2Proof.Machine
end

