-- ==== Sys2Proof/Safety.lean ====
section
/-! DEFINITION. What the statements say about runs: sequences of operations, and the invariants the spec gives the
machine (spec/10_state.md R29, R41; spec/60_exceptions.md R181, R184). -/

namespace Sys2Proof.Machine

/-- Operations executed one after another (R68); a refusal ends the run (R181). -/
def execAll : List Instr → State → Host.Outcome State Fault Refusal
  | [], s => .next s
  | i :: is, s =>
    match exec i s with
    | .next t => execAll is t
    | .fault r => .fault r
    | .refused r => .refused r

/-- The terminal count of a mode (R143). -/
def Mode.terminal : Mode → Nat
  | .fourStep => 14915
  | .fiveStep => 18641

/-- With no delayed reset pending, the count is below the mode's terminal count. It gives R29 (a) and (b) and, unlike
them, is kept by every step from every state that has it. -/
abbrev BlockState.CountBelowTerminal (st : BlockState) : Prop :=
  st.resetDelay = .idle → st.cycle.toNat < st.mode.terminal

/-- R184: an inhibited frame source never drives the line. -/
abbrev BlockState.InhibitedIsClear (st : BlockState) : Prop :=
  st.interruptInhibit = true → st.frameInterruptFlag = false

/-- R36, R41: every length counter answers in 0..255. -/
abbrev Collab.CountersSmall (c : Collab) : Prop :=
  c.p1.lc.counter ≤ 255 ∧ c.p2.lc.counter ≤ 255 ∧ c.t.lc.counter ≤ 255 ∧ c.n.lc.counter ≤ 255

/-- The invariant of the machine. -/
abbrev State.Inv (s : State) : Prop :=
  s.st.CountBelowTerminal ∧ s.st.InhibitedIsClear ∧ s.collab.CountersSmall

/-- R29 "without re-arming": with no delayed reset pending the count is below the terminal count, and with `Pending(n)`
the count it will have when the reset fires is at most T5 + 1. -/
abbrev BlockState.CountBounded (st : BlockState) : Prop :=
  st.CountBelowTerminal ∧ ∀ n, st.resetDelay = .pending n → st.cycle.toNat + n.val ≤ 18642

/-- A frame-counter write that re-arms a delayed reset still pending (R205). -/
abbrev Rearms (i : Instr) (st : BlockState) : Prop :=
  st.resetDelay ≠ .idle ∧ ∃ d : Byte, i = .wrFramecnt d ∧ d.getLsbD 7 = false

/-- What `get_output` answers is the opaque `GetOutput_c` of the channel's state now (R160, D40). -/
def Collab.OutputsCurrent (c : Collab) : Prop :=
  c.outputs.p1 = Config.getOutputPulse .p1 c.p1 ∧ c.outputs.p2 = Config.getOutputPulse .p2 c.p2 ∧
    c.outputs.t = Config.getOutputTriangle c.t ∧ c.outputs.n = Config.getOutputNoise c.n ∧
    c.outputs.d = c.d.getOutput

end Sys2Proof.Machine
end

