-- ==== Sys2Proof/Certificates/Slice0/Obligations.lean ====
section
/-! DEFINITION. The statements about the model, from the numbered rules of the spec. The helpers of namespace
`Sys2Proof.Claims` write the rules' effects out field by field, so that a statement does not repeat the definition it is
about. The fields that hold the answers to `get_output`, the trace and the result are the model's form
(notes/assumptions/4.md, 13.md). -/

namespace Sys2Proof.Claims

open Sys2Proof.Machine

/-- The outcome of an operation: a next state. -/
abbrev Answers (i : Instr) (s t : State) : Prop := exec i s = .next t

/-- The number `w` is the operation word of `i`: it decodes to it (R77). -/
abbrev IsWord (w : Nat) (i : Instr) : Prop := decode w = .ok i

/-- The amplitude is finite, not NaN and between 0 and the bound (R164). -/
def amplitudeIn (bound : Rat) (a : Amp) : Prop := ∃ q, (Fp.unpack a).toRat? = some q ∧ 0 ≤ q ∧ q ≤ bound

/-- R164 `InContract` of the five answers. -/
def amplitudesIn (o : Outputs) : Prop :=
  amplitudeIn 15 o.p1 ∧ amplitudeIn 15 o.p2 ∧ amplitudeIn 15 o.t ∧ amplitudeIn 15 o.n ∧ amplitudeIn 127 o.d

/-- The state after an operation that makes the calls listed, returns `r`, leaves the collaborators as `c` and changes
nothing else: not the block state, not the stream of operations. -/
def after (s : State) (calls : List Call) (r : Result) (c : Collab) : State :=
  { st := s.st, collab := c, trace := calls, result := r, schedule := s.schedule }

/-- Pulse 1 as `p`, its answer to `get_output` that of `p`; everything else as in `c`. -/
def putP1 (p : Pulse) (c : Collab) : Collab :=
  { p1 := p, p2 := c.p2, t := c.t, n := c.n, d := c.d,
    outputs := { p1 := Config.getOutputPulse .p1 p, p2 := c.outputs.p2, t := c.outputs.t, n := c.outputs.n,
                 d := c.outputs.d } }

/-- Pulse 2 as `p`; everything else as in `c`. -/
def putP2 (p : Pulse) (c : Collab) : Collab :=
  { p1 := c.p1, p2 := p, t := c.t, n := c.n, d := c.d,
    outputs := { p1 := c.outputs.p1, p2 := Config.getOutputPulse .p2 p, t := c.outputs.t, n := c.outputs.n,
                 d := c.outputs.d } }

/-- The triangle as `t`; everything else as in `c`. -/
def putT (t : Triangle) (c : Collab) : Collab :=
  { p1 := c.p1, p2 := c.p2, t := t, n := c.n, d := c.d,
    outputs := { p1 := c.outputs.p1, p2 := c.outputs.p2, t := Config.getOutputTriangle t, n := c.outputs.n,
                 d := c.outputs.d } }

/-- The noise channel as `n`; everything else as in `c`. -/
def putN (n : Noise) (c : Collab) : Collab :=
  { p1 := c.p1, p2 := c.p2, t := c.t, n := n, d := c.d,
    outputs := { p1 := c.outputs.p1, p2 := c.outputs.p2, t := c.outputs.t, n := Config.getOutputNoise n,
                 d := c.outputs.d } }

/-- What the DMC `d` answers to `get_output`: `GetOutput_c`, the change request left out (notes/assumptions/21.md). -/
def dmcOutput (d : Dmc) : Amp :=
  Config.getOutputDmc { d with reader := { d.reader with changeRequested := false } }

/-- The DMC as `d`; everything else as in `c`. -/
def putD (d : Dmc) (c : Collab) : Collab :=
  { p1 := c.p1, p2 := c.p2, t := c.t, n := c.n, d := d,
    outputs := { p1 := c.outputs.p1, p2 := c.outputs.p2, t := c.outputs.t, n := c.outputs.n,
                 d := dmcOutput d } }

/-- A pulse after a control write of `x` (R101, R105). -/
def pulseControlled (x : Byte) (p : Pulse) : Pulse :=
  { duty := x.extractLsb' 6 2
    period := p.period
    env := { volume := x.extractLsb' 0 4, useConstantVolume := x.getLsbD 4, loopFlag := x.getLsbD 5,
             startFlag := true, internal := p.env.internal }
    lc := { counter := p.lc.counter, halt := x.getLsbD 5, enabled := p.lc.enabled }
    sw := p.sw
    internal := p.internal }

/-- Period bits 15:8 of `v` kept, bits 7:0 from `x` (R103), as masks. -/
def lowReplaced (v : BitVec 16) (x : Byte) : BitVec 16 := (v &&& 0xFF00#16) ||| x.zeroExtend 16

/-- Period bits 15:11 and 7:0 of `v` kept, bits 10:8 from bits 2:0 of `x` (R104), as masks. -/
def highReplaced (v : BitVec 16) (x : Byte) : BitVec 16 :=
  (v &&& 0xF8FF#16) ||| ((x.zeroExtend 16 &&& 7#16) <<< 8)

/-- A length counter after `reload_counter(x[7:3])` (R39). -/
def reloaded (x : Byte) (l : LengthCounter) : LengthCounter :=
  { counter := if l.enabled = true ∨ Config.lcReloadWhenDisabled = true then (Config.lengthTable (x.extractLsb' 3 5)).toNat
               else l.counter
    halt := l.halt
    enabled := l.enabled }

/-- A pulse after the field effects of a timer-high write (R104), before `reset()`. -/
def pulseReloaded (x : Byte) (p : Pulse) : Pulse :=
  { duty := p.duty
    period := highReplaced p.period x
    env := { volume := p.env.volume, useConstantVolume := p.env.useConstantVolume, loopFlag := p.env.loopFlag,
             startFlag := true, internal := p.env.internal }
    lc := reloaded x p.lc
    sw := p.sw
    internal := p.internal }

/-- A length counter after `set_enabled(b)` (R38). -/
def lcEnabled (b : Bool) (l : LengthCounter) : LengthCounter :=
  match b with
  | true => { counter := l.counter, halt := l.halt, enabled := true }
  | false => { counter := 0, halt := l.halt, enabled := false }

/-- A length counter after `decrement()` (R40). -/
def lcDecremented (l : LengthCounter) : LengthCounter :=
  { counter := if l.halt = true then l.counter else l.counter - 1, halt := l.halt, enabled := l.enabled }

/-- The five answers to `get_output` renewed from the channels' states. -/
def renewed (c : Collab) : Collab :=
  { c with outputs := { p1 := Config.getOutputPulse .p1 c.p1, p2 := Config.getOutputPulse .p2 c.p2,
                        t := Config.getOutputTriangle c.t, n := Config.getOutputNoise c.n,
                        d := dmcOutput c.d } }

/-- Every channel's timer clocked (R140). -/
def timersClocked (c : Collab) : Collab :=
  renewed { c with
    p1 := { c.p1 with internal := Config.timerClockPulse .p1 c.p1 }
    p2 := { c.p2 with internal := Config.timerClockPulse .p2 c.p2 }
    t := { c.t with internal := Config.timerClockTriangle c.t }
    n := { c.n with internal := Config.timerClockNoise c.n }
    d := { c.d with reader := { c.d.reader with internal := Config.timerClockDmc c.d } } }

/-- The answers of the four channels a frame event touches renewed; the DMC's kept. -/
def renewedButDmc (c : Collab) : Collab :=
  { c with outputs := { p1 := Config.getOutputPulse .p1 c.p1, p2 := Config.getOutputPulse .p2 c.p2,
                        t := Config.getOutputTriangle c.t, n := Config.getOutputNoise c.n, d := c.outputs.d } }

/-- The quarter-frame event on the collaborators (R146): the three envelopes and the linear counter. -/
def quarterFired (c : Collab) : Collab :=
  renewedButDmc { c with
    p1 := { c.p1 with env := Config.envClock .p1 c.p1.env }
    p2 := { c.p2 with env := Config.envClock .p2 c.p2.env }
    n := { c.n with env := Config.envClock .n c.n.env }
    t := { c.t with lin := Config.linClock c.t } }

/-- A pulse after its length counter was decremented and its sweep unit clocked (R147). -/
def pulseHalfFired (i : PulseId) (p : Pulse) : Pulse :=
  { p with
    lc := lcDecremented p.lc
    sw := (Config.sweepClock i { p with lc := lcDecremented p.lc }).1
    period := (Config.sweepClock i { p with lc := lcDecremented p.lc }).2 }

/-- The half-frame event on the collaborators (R147): the four length counters and the two sweep units. -/
def halfFired (c : Collab) : Collab :=
  renewedButDmc { c with
    p1 := pulseHalfFired .p1 c.p1
    p2 := pulseHalfFired .p2 c.p2
    t := { c.t with lc := lcDecremented c.t.lc }
    n := { c.n with lc := lcDecremented c.n.lc } }

/-- The five timer clocks (R140). -/
def timerCalls : List Call :=
  [.timerClock .p1, .timerClock .p2, .timerClock .t, .timerClock .n, .timerClock .d]

/-- The four quarter-frame calls (R146). -/
def quarterCalls : List Call := [.envClock .p1, .envClock .p2, .envClock .n, .clockLinearCounter]

/-- The six half-frame calls (R147). -/
def halfCalls : List Call :=
  [.decrement .p1, .decrement .p2, .decrement .t, .decrement .n, .clockSweeper .p1, .clockSweeper .p2]

/-- The delay after a CLOCK that does not fire it (R142). -/
def delayAdvanced : ResetDelay → ResetDelay
  | .pending 2 => .pending 1
  | .pending 1 => .pending 0
  | r => r

/-- The DMC with the reader `r`. -/
def dmcWith (d : Dmc) (r : DmcReader) : Dmc := { d with reader := r }

/-- The 21 reads of write-only registers (R131). -/
def writeOnlyReads : List Instr :=
  [.rdP1Ctrl, .rdP1Sweep, .rdP1Tlo, .rdP1Thi, .rdP2Ctrl, .rdP2Sweep, .rdP2Tlo, .rdP2Thi, .rdTrictrl, .rdTriunused,
   .rdTritlo, .rdTrithi, .rdNoictrl, .rdNoiunused, .rdNoiper, .rdNoilen, .rdDmcctrl, .rdDmcload, .rdDmcaddr, .rdDmclen,
   .rdFramecnt]

/-- The bits of a status byte (R93), from the state before the read (R65). -/
def statusBits (s : State) (b : Byte) : Prop :=
  b.getLsbD 7 = s.collab.d.reader.irqFlag ∧
  b.getLsbD 6 = s.st.frameInterruptFlag ∧
  b.getLsbD 5 = false ∧
  (b.getLsbD 4 = true ↔ 0 < s.collab.d.reader.remainingBytes) ∧
  (b.getLsbD 3 = true ↔ s.collab.n.lc.counter ≠ 0) ∧
  (b.getLsbD 2 = true ↔ s.collab.t.lc.counter ≠ 0) ∧
  (b.getLsbD 1 = true ↔ s.collab.p2.lc.counter ≠ 0) ∧
  (b.getLsbD 0 = true ↔ s.collab.p1.lc.counter ≠ 0)

/-- The operation whose write loads the length counter of a slot from its data byte (R104, R108, R112, R116). -/
def lengthWrite : LcId → Byte → Instr
  | .p1 => .wrP1Thi
  | .p2 => .wrP2Thi
  | .t => .wrTrithi
  | .n => .wrNoilen

/-- The slot's bit of the status register, in a write and in a read (R91, R93). -/
def statusBit : LcId → Nat
  | .p1 => 0
  | .p2 => 1
  | .t => 2
  | .n => 3

/-- The exact value of `± m · 2^e`. -/
def signed (neg : Bool) (m : Nat) (e : Int) : Rat := (if neg then -1 else 1) * m * 2 ^ e

/-- The precision of the IEEE 754 formats, in bits. -/
def precision : MixFormat → Nat
  | .binary32 => 24
  | .binary64 => 53

/-- The exponent of the least positive value of the formats. -/
def leastExp : MixFormat → Int
  | .binary32 => -149
  | .binary64 => -1074

/-- The exponent of the last place of the greatest finite values of the formats. -/
def greatestExp : MixFormat → Int
  | .binary32 => 104
  | .binary64 => 971

/-- The rational is a finite value of the format, subnormal or normal. -/
def FormatValue (f : MixFormat) (r : Rat) : Prop :=
  ∃ (neg : Bool) (m : Nat) (e : Int), m < 2 ^ precision f ∧ leastExp f ≤ e ∧ e ≤ greatestExp f ∧ r = signed neg m e

/-- Half a last place past the greatest finite value: from here on IEEE 754 rounds to infinity. -/
def overflowBound (f : MixFormat) : Rat := (2 ^ precision f - 1 / 2) * 2 ^ greatestExp f

/-- `x` is the exact value `v` rounded to the format, to nearest, ties to the even coefficient, with the sign `neg`: an
infinity from `overflowBound` on; below it a value of the format in its own coefficient and exponent, and every other
value of the format is further from `v`, or as far and the coefficient of `x` is even. -/
def Nearest (f : MixFormat) (v : Rat) (neg : Bool) : Fp → Prop
  | .nan => False
  | .inf s => s = neg ∧ overflowBound f ≤ |v|
  | .fin s m e =>
    s = neg ∧ |v| < overflowBound f ∧ FormatValue f (signed s m e) ∧
    leastExp f ≤ e ∧ m ≤ 2 ^ precision f ∧ (e = leastExp f ∨ 2 ^ precision f ≤ 2 * m) ∧
    ∀ r, FormatValue f r → r = signed s m e ∨ |v - signed s m e| < |v - r| ∨
      (|v - signed s m e| = |v - r| ∧ m % 2 = 0)

/-- R162: a quotient of integers, and with it a literal, is rounded to the format. -/
def RoundsToNearest (f : MixFormat) : Prop :=
  (∀ (neg : Bool) (num den : Nat), 0 < den →
    Nearest f ((if neg then -1 else 1) * (num / den)) neg (Fp.round f neg num den)) ∧
  (∀ num den : Nat, 0 < den → Nearest f (num / den) false (Fp.lit f num den))

/-- R162: an addition is one rounding of the exact sum; an exact zero sum is negative only when both operands are; an
infinity stays. -/
def AddsCorrectly (f : MixFormat) : Prop :=
  (∀ (s : Bool) (m : Nat) (e : Int) (s' : Bool) (m' : Nat) (e' : Int),
    (signed s m e + signed s' m' e' = 0 → Fp.add f (.fin s m e) (.fin s' m' e') = .fin (s && s') 0 (leastExp f)) ∧
    (signed s m e + signed s' m' e' ≠ 0 →
      Nearest f (signed s m e + signed s' m' e') (decide (signed s m e + signed s' m' e' < 0))
        (Fp.add f (.fin s m e) (.fin s' m' e')))) ∧
  (∀ (s s' : Bool) (m : Nat) (e : Int),
    Fp.add f (.inf s) (.fin s' m e) = .inf s ∧ Fp.add f (.fin s' m e) (.inf s) = .inf s)

/-- R162: a division is one rounding of the exact quotient; over a zero it is an infinity, or NaN for a zero; over an
infinity a zero. -/
def DividesCorrectly (f : MixFormat) : Prop :=
  ∀ (s : Bool) (m : Nat) (e : Int) (s' : Bool) (m' : Nat) (e' : Int),
    (m' ≠ 0 → Nearest f (signed s m e / signed s' m' e') (s != s') (Fp.div f (.fin s m e) (.fin s' m' e'))) ∧
    (m ≠ 0 → Fp.div f (.fin s m e) (.fin s' 0 e') = .inf (s != s')) ∧
    Fp.div f (.fin s 0 e) (.fin s' 0 e') = .nan ∧
    Fp.div f (.fin s m e) (.inf s') = .fin (s != s') 0 (leastExp f)

/-- The datum that carries a value of the format reads back as that value with that sign, an infinity as that infinity; and
the test of a finite datum for the format says whether its value is one of the format (the carrier is the model's:
notes/assumptions/10.md). -/
def CarriesExactly (f : MixFormat) : Prop :=
  (∀ (s : Bool) (m : Nat) (e : Int), FormatValue f (signed s m e) →
    ∃ m' e', Fp.unpack (Fp.pack (.fin s m e)) = .fin s m' e' ∧ signed s m' e' = signed s m e) ∧
  (∀ s : Bool, Fp.unpack (Fp.pack (.inf s)) = .inf s) ∧
  (∀ (a : Amp) (s : Bool) (m : Nat) (e : Int), Fp.unpack a = .fin s m e →
    ((Fp.unpack a).isOf f = true ↔ FormatValue f (signed s m e)))

/-- Five inputs of the Mixer that are finite, with these exact values, and in contract (R164). -/
def InputValues (x1 x2 x3 x4 x5 : Fp) (p1 p2 t n d : Rat) : Prop :=
  x1.toRat? = some p1 ∧ x2.toRat? = some p2 ∧ x3.toRat? = some t ∧ x4.toRat? = some n ∧ x5.toRat? = some d ∧
  (0 ≤ p1 ∧ p1 ≤ 15) ∧ (0 ≤ p2 ∧ p2 ≤ 15) ∧ (0 ≤ t ∧ t ≤ 15) ∧ (0 ≤ n ∧ n ≤ 15) ∧ (0 ≤ d ∧ d ≤ 127)

/-- The five answers are finite, with these exact values, and in contract. -/
def HaveValues (o : Outputs) (p1 p2 t n d : Rat) : Prop :=
  InputValues (Fp.unpack o.p1) (Fp.unpack o.p2) (Fp.unpack o.t) (Fp.unpack o.n) (Fp.unpack o.d) p1 p2 t n d

/-- `q` is within R162's relative 1e-6 of the value `e`, and 1e-30 (notes/assumptions/11.md). -/
def Close (q e : Rat) : Prop := |q - e| ≤ e / 10 ^ 6 + 1 / 10 ^ 30

end Sys2Proof.Claims

open Sys2Proof Sys2Proof.Machine Sys2Proof.Claims

/-! Reset -/

/-- R200, R201: the block state after construction, whatever `COLLAB_INIT` is; no call made; each collaborator record
at its value of `COLLAB_INIT`. The machine's reset is a construction. The reset values are the spec's decision D13. -/
def Obligations.ConstructionGivesResetState : Prop :=
  (∀ c : Collab,
    (State.construct c).st = { cycle := 0, mode := .fourStep, interruptInhibit := false, frameInterruptFlag := false,
                               irqChangeRequested := false, resetDelay := .idle } ∧
    (State.construct c).trace = [] ∧ (State.construct c).collab = c) ∧
  ∃ c : Collab, core.reset = State.construct c

/-! The stream of operations and the encoding -/

/-- R68, R77: the next word of the stream, when it decodes, is executed in the state without that entry; so a word of
the opcode table issued next is executed next, in the state as it is (the stream and how a word is issued are the
model's form: notes/assumptions/1.md, 18.md). -/
def Obligations.StepExecutesDecodedWord : Prop :=
  (∀ (s : State) (w : Nat) (i : Instr) (rest : List Event),
    s.schedule = .word w :: rest → decode w = .ok i → step s = exec i { s with schedule := rest }) ∧
  (∀ (s : State) (nbits w : Nat) (i : Instr),
    decodeTableWord nbits w = some i → step (s.withFetchWord nbits w) = exec i s)

/-- R95, R181, R182: an illegal word is refused as `BadOperationWord`. Refusing is the spec's decision D2, D4. -/
def Obligations.IllegalWordIsRefused : Prop :=
  ∀ (s : State) (w : Nat) (rest : List Event),
    s.schedule = .word w :: rest → legalWord w = false → step s = .refused .badOperationWord

/-- R61, R9: a bus access of other than one byte is refused; one of one byte is the operation of its operation word (how an
access is issued is the model's form: notes/assumptions/17.md). -/
def Obligations.OnlyOneByteAccessesRun : Prop :=
  (∀ (s : State) (a : BusAddr) (bytes : List Byte) (rest : List Event),
    s.schedule = .busWrite a bytes :: rest → bytes.length ≠ 1 → step s = .refused .widthNotOne) ∧
  (∀ (s : State) (a : BusAddr) (n : Nat) (rest : List Event),
    s.schedule = .busRead a n :: rest → n ≠ 1 → step s = .refused .widthNotOne) ∧
  (∀ (s : State) (a : BusAddr) (d : Byte),
    step { s with schedule := .busWrite a [d] :: s.schedule }
      = step { s with schedule := .word (0x1000000 + a.toNat * 256 + d.toNat) :: s.schedule }) ∧
  (∀ (s : State) (a : BusAddr),
    step { s with schedule := .busRead a 1 :: s.schedule }
      = step { s with schedule := .word (a.toNat * 256) :: s.schedule })

/-- R43: the DMC's environment step, unconstrained, changes only the reader (and with it what the DMC answers to
`get_output`). The schedule entry is the model's form: notes/assumptions/9.md. -/
def Obligations.DmcActivityChangesOnlyTheReader : Prop :=
  ∀ (s : State) (r : DmcReader) (rest : List Event),
    s.schedule = .dmcActivity r :: rest →
      step s = .next { s with schedule := rest, collab := putD (dmcWith s.collab.d r) s.collab }

/-- R77, R95: decoding is total, and the words that name an operation are exactly the legal ones. -/
def Obligations.DecodableWordsAreTheLegalWords : Prop :=
  ∀ w : Nat, (∃ i, decode w = .ok i) ↔ legalWord w = true

/-- R75-R78: every instruction decodes from its own operation word, with its data byte. -/
def Obligations.DecodeOfEncodeIsTheInstruction : Prop :=
  ∀ i : Instr, decode (encode i).toNat = .ok i

/-- R75-R78: a word that decodes is the operation word of what it decodes to, so no two words name one operation. -/
def Obligations.EncodeOfDecodeIsTheWord : Prop :=
  ∀ (w : Nat) (i : Instr), decode w = .ok i → (encode i).toNat = w

/-- R75: some words written out from the encoding tables (the table V-ENC of spec/95_test_vectors.md). -/
def Obligations.SpecWordsDecode : Prop :=
  decode 0x14017C0 = .ok (.wrFramecnt 0xC0) ∧ decode 0x0401500 = .ok .rdStatus ∧ decode 0x2000000 = .ok .clk ∧
  decode 0x3000000 = .ok .clrq ∧ decode 0x3000100 = .ok .iscr ∧ decode 0x3000200 = .ok .pin ∧
  decode 0x3000300 = .ok .mix ∧ decode 0x14009FF = .ok (.wrTriunused 0xFF) ∧
  decode 0x1401000 = .ok (.wrDmcctrl 0) ∧ decode 0x1400BF9 = .ok (.wrTrithi 0xF9)

/-- R97, R98: a line with a register name assembles to the word of the register's write or read, `CLK n` to `n` words
of CLOCK, and the host-control lines to theirs. The syntax is the spec's own, decision D30. -/
def Obligations.AssemblyLinesAreEncodings : Prop :=
  (∀ (r : Reg) (d : Byte), AsmLine.assemble (.wr (.name r) d) = [encode (r.write d)]) ∧
  (∀ r : Reg, AsmLine.assemble (.rd (.name r)) = [encode r.read]) ∧
  (∀ (r : Reg) (d : Byte), AsmLine.assemble (.wr (.name r) d) = AsmLine.assemble (.wr (.num r.addr) d)) ∧
  (∀ r : Reg, AsmLine.assemble (.rd (.name r)) = AsmLine.assemble (.rd (.num r.addr))) ∧
  (∀ n : Nat, AsmLine.assemble (.clk n) = List.replicate n (encode .clk)) ∧
  AsmLine.assemble .clrq = [encode .clrq] ∧ AsmLine.assemble .iscr = [encode .iscr] ∧
  AsmLine.assemble .pin = [encode .pin] ∧ AsmLine.assemble .mix = [encode .mix]

/-! Pulse writes -/

/-- R101, R105 with the layout R79: the calls, the new duty, envelope and halt, and nothing else. -/
def Obligations.PulseControlWrite : Prop :=
  ∀ (x : Byte) (s : State),
    IsWord (0x1400000 + x.toNat) (.wrP1Ctrl x) ∧ IsWord (0x1400400 + x.toNat) (.wrP2Ctrl x) ∧
    Answers (.wrP1Ctrl x) s (after s
      [.setDuty .p1 (x.extractLsb' 6 2), .setVolume .p1 (x.extractLsb' 0 4) (x.getLsbD 4), .setHalt .p1 (x.getLsbD 5),
       .setEnvLoopFlag .p1 (x.getLsbD 5), .setStartFlag .p1 true] .nothing
      (putP1 (pulseControlled x s.collab.p1) s.collab)) ∧
    Answers (.wrP2Ctrl x) s (after s
      [.setDuty .p2 (x.extractLsb' 6 2), .setVolume .p2 (x.extractLsb' 0 4) (x.getLsbD 4), .setHalt .p2 (x.getLsbD 5),
       .setEnvLoopFlag .p2 (x.getLsbD 5), .setStartFlag .p2 true] .nothing
      (putP2 (pulseControlled x s.collab.p2) s.collab))

/-- R102, R106: the whole byte goes to the sweep unit. -/
def Obligations.PulseSweepWrite : Prop :=
  ∀ (x : Byte) (s : State),
    IsWord (0x1400100 + x.toNat) (.wrP1Sweep x) ∧ IsWord (0x1400500 + x.toNat) (.wrP2Sweep x) ∧
    Answers (.wrP1Sweep x) s (after s [.setSweeperData .p1 x] .nothing
      (putP1 { s.collab.p1 with sw := { data := x, internal := s.collab.p1.sw.internal } } s.collab)) ∧
    Answers (.wrP2Sweep x) s (after s [.setSweeperData .p2 x] .nothing
      (putP2 { s.collab.p2 with sw := { data := x, internal := s.collab.p2.sw.internal } } s.collab))

/-- R103, R107, R111: a timer-low write replaces period bits 7:0 and keeps bits 15:8. -/
def Obligations.TimerLowWrite : Prop :=
  ∀ (x : Byte) (s : State),
    IsWord (0x1400200 + x.toNat) (.wrP1Tlo x) ∧ IsWord (0x1400600 + x.toNat) (.wrP2Tlo x) ∧
    IsWord (0x1400A00 + x.toNat) (.wrTritlo x) ∧
    Answers (.wrP1Tlo x) s (after s [.setPeriod .p1 (lowReplaced s.collab.p1.period x)] .nothing
      (putP1 { s.collab.p1 with period := lowReplaced s.collab.p1.period x } s.collab)) ∧
    Answers (.wrP2Tlo x) s (after s [.setPeriod .p2 (lowReplaced s.collab.p2.period x)] .nothing
      (putP2 { s.collab.p2 with period := lowReplaced s.collab.p2.period x } s.collab)) ∧
    Answers (.wrTritlo x) s (after s [.setPeriod .t (lowReplaced s.collab.t.period x)] .nothing
      (putT { s.collab.t with period := lowReplaced s.collab.t.period x } s.collab))

/-- R104, R108: a pulse timer-high write replaces period bits 10:8, reloads the length counter, sets the start flag
and resets the channel. The place of the period bits and the channel reset are the spec's decisions D20, D28. -/
def Obligations.PulseTimerHighWrite : Prop :=
  ∀ (x : Byte) (s : State),
    IsWord (0x1400300 + x.toNat) (.wrP1Thi x) ∧ IsWord (0x1400700 + x.toNat) (.wrP2Thi x) ∧
    Answers (.wrP1Thi x) s (after s
      [.setPeriod .p1 (highReplaced s.collab.p1.period x), .reloadCounter .p1 (x.extractLsb' 3 5), .setStartFlag .p1 true,
       .reset .p1] .nothing
      (putP1 { pulseReloaded x s.collab.p1 with
                 internal := Config.chanResetPulse .p1 (pulseReloaded x s.collab.p1) } s.collab)) ∧
    Answers (.wrP2Thi x) s (after s
      [.setPeriod .p2 (highReplaced s.collab.p2.period x), .reloadCounter .p2 (x.extractLsb' 3 5), .setStartFlag .p2 true,
       .reset .p2] .nothing
      (putP2 { pulseReloaded x s.collab.p2 with
                 internal := Config.chanResetPulse .p2 (pulseReloaded x s.collab.p2) } s.collab))

/-! Triangle and noise writes -/

/-- R109 with the layout R83: control flag, reload value, and the halt from bit 7 (`TRI_HALT_FROM_CTRL` is true). The
bit places and `TRI_HALT_FROM_CTRL` are the spec's decision D17 (notes/assumptions/14.md). -/
def Obligations.TriangleControlWrite : Prop :=
  ∀ (x : Byte) (s : State),
    IsWord (0x1400800 + x.toNat) (.wrTrictrl x) ∧
    Answers (.wrTrictrl x) s (after s
      [.setLinControlFlag (x.getLsbD 7), .setLinReloadValue (x.extractLsb' 0 7), .setHalt .t (x.getLsbD 7)] .nothing
      (putT { s.collab.t with
                lin := { reloadValue := x.extractLsb' 0 7, control := x.getLsbD 7,
                         reloadFlag := s.collab.t.lin.reloadFlag, internal := s.collab.t.lin.internal }
                lc := { counter := s.collab.t.lc.counter, halt := x.getLsbD 7, enabled := s.collab.t.lc.enabled } }
        s.collab))

/-- R112: a triangle timer-high write replaces period bits 10:8, reloads the length counter and sets the linear
counter's reload flag. The place of the period bits is the spec's decision D20 (notes/assumptions/14.md). -/
def Obligations.TriangleTimerHighWrite : Prop :=
  ∀ (x : Byte) (s : State),
    IsWord (0x1400B00 + x.toNat) (.wrTrithi x) ∧
    Answers (.wrTrithi x) s (after s
      [.setPeriod .t (highReplaced s.collab.t.period x), .reloadCounter .t (x.extractLsb' 3 5), .setLinReloadFlag] .nothing
      (putT { s.collab.t with
                period := highReplaced s.collab.t.period x
                lc := reloaded x s.collab.t.lc
                lin := { s.collab.t.lin with reloadFlag := true } } s.collab))

/-- R110, R114: writes of the unused slots make no call and change nothing. That they are legal is the spec's decision
D5. -/
def Obligations.UnusedSlotWrites : Prop :=
  ∀ (x : Byte) (s : State),
    IsWord (0x1400900 + x.toNat) (.wrTriunused x) ∧ IsWord (0x1400D00 + x.toNat) (.wrNoiunused x) ∧
    Answers (.wrTriunused x) s (after s [] .nothing s.collab) ∧ Answers (.wrNoiunused x) s (after s [] .nothing s.collab)

/-- R113 with the layout R84: volume, halt, loop and start flag of the noise channel. The ignored bits are the spec's
decision D15. -/
def Obligations.NoiseControlWrite : Prop :=
  ∀ (x : Byte) (s : State),
    IsWord (0x1400C00 + x.toNat) (.wrNoictrl x) ∧
    Answers (.wrNoictrl x) s (after s
      [.setVolume .n (x.extractLsb' 0 4) (x.getLsbD 4), .setHalt .n (x.getLsbD 5), .setEnvLoopFlag .n (x.getLsbD 5),
       .setStartFlag .n true] .nothing
      (putN { s.collab.n with
                env := { volume := x.extractLsb' 0 4, useConstantVolume := x.getLsbD 4, loopFlag := x.getLsbD 5,
                         startFlag := true, internal := s.collab.n.env.internal }
                lc := { counter := s.collab.n.lc.counter, halt := x.getLsbD 5, enabled := s.collab.n.lc.enabled } }
        s.collab))

/-- R115 with the layout R85, and R116 with the layout R86: mode and period index; length reload only. The bit places,
and that the length write starts no envelope, are the spec's decisions D18, D16. -/
def Obligations.NoisePeriodAndLengthWrites : Prop :=
  ∀ (x : Byte) (s : State),
    IsWord (0x1400E00 + x.toNat) (.wrNoiper x) ∧ IsWord (0x1400F00 + x.toNat) (.wrNoilen x) ∧
    Answers (.wrNoiper x) s (after s [.setNoiseMode (x.getLsbD 7), .setNoisePeriodIndex (x.extractLsb' 0 4)] .nothing
      (putN { s.collab.n with mode := x.getLsbD 7, periodIndex := x.extractLsb' 0 4 } s.collab)) ∧
    Answers (.wrNoilen x) s (after s [.reloadCounter .n (x.extractLsb' 3 5)] .nothing
      (putN { s.collab.n with lc := reloaded x s.collab.n.lc } s.collab))

/-! DMC writes -/

/-- R117 with the layout R87: rate, loop and IRQ enable. The spec leaves what the calls do inside the DMC, and whether
clearing the IRQ enable clears the IRQ flag, to the DMC: the statement leaves them open, but for what the model fixes
(notes/assumptions/7.md): the bytes left and the change request stay, and the IRQ flag is never raised. -/
def Obligations.DmcControlWrite : Prop :=
  ∀ (x : Byte) (s : State), IsWord (0x1401000 + x.toNat) (.wrDmcctrl x) ∧ ∃ (irq : Bool) (k : Internal),
    Answers (.wrDmcctrl x) s (after s
      [.setRateIndex (x.extractLsb' 0 4), .setDmcLoopFlag (x.getLsbD 6), .setIrqEnabledFlag (x.getLsbD 7)] .nothing
      (putD { rateIndex := x.extractLsb' 0 4, loopFlag := x.getLsbD 6, irqEnabled := x.getLsbD 7,
              directOutputLevel := s.collab.d.directOutputLevel, sampleAddress := s.collab.d.sampleAddress,
              sampleLength := s.collab.d.sampleLength,
              reader := { remainingBytes := s.collab.d.reader.remainingBytes, irqFlag := irq,
                          changeRequested := s.collab.d.reader.changeRequested, internal := k } } s.collab)) ∧
    (irq = true → s.collab.d.reader.irqFlag = true) ∧
    (x.getLsbD 7 = true → irq = s.collab.d.reader.irqFlag)

/-- R118, R119, R120: the direct level (bit 7 masked off), the sample address and the sample length. What the calls do
beyond that is internal to the DMC: its internal state is left open, and that nothing else may change is the model's
reading (notes/assumptions/7.md). -/
def Obligations.DmcLevelAddressLengthWrites : Prop :=
  ∀ (x : Byte) (s : State),
    IsWord (0x1401100 + x.toNat) (.wrDmcload x) ∧ IsWord (0x1401200 + x.toNat) (.wrDmcaddr x) ∧
    IsWord (0x1401300 + x.toNat) (.wrDmclen x) ∧
    (∃ k : Internal, Answers (.wrDmcload x) s (after s [.setDirectOutputLevel (x.extractLsb' 0 7)] .nothing
      (putD { s.collab.d with directOutputLevel := x.extractLsb' 0 7, reader := { s.collab.d.reader with internal := k } }
        s.collab))) ∧
    (∃ k : Internal, Answers (.wrDmcaddr x) s (after s [.setSamplesAddress x] .nothing
      (putD { s.collab.d with sampleAddress := x, reader := { s.collab.d.reader with internal := k } } s.collab))) ∧
    (∃ k : Internal, Answers (.wrDmclen x) s (after s [.setSamplesLength x] .nothing
      (putD { s.collab.d with sampleLength := x, reader := { s.collab.d.reader with internal := k } } s.collab)))

/-! Status and frame counter -/

/-- R121 with the layout R91: the enables, the three cases of the DMC, the DMC IRQ clear, the call trace, and nothing
else. What restart and silencing may change is the model's reading (notes/assumptions/8.md). -/
def Obligations.StatusWrite : Prop :=
  ∀ (x : Byte) (s : State),
    let c := s.collab
    let enables : List Call := [.setEnabled .p1 (x.getLsbD 0), .setEnabled .p2 (x.getLsbD 1), .setEnabled .t (x.getLsbD 2),
                                .setEnabled .n (x.getLsbD 3)]
    let reader : DmcReader :=
      if x.getLsbD 4 = false then
        { remainingBytes := 0, irqFlag := c.d.reader.irqFlag, changeRequested := c.d.reader.changeRequested,
          internal := Config.dmcSilence c.d }
      else if c.d.reader.remainingBytes = 0 then Config.dmcRestart c.d
      else c.d.reader
    let dmcCalls : List Call :=
      if x.getLsbD 4 = false then [.clearRemainingAndSilence]
      else if c.d.reader.remainingBytes = 0 then [.restartSample]
      else []
    IsWord (0x1401500 + x.toNat) (.wrStatus x) ∧
    Answers (.wrStatus x) s (after s (enables ++ dmcCalls ++ [.clearIrqFlag]) .nothing
      (renewed { c with
        p1 := { c.p1 with lc := lcEnabled (x.getLsbD 0) c.p1.lc }
        p2 := { c.p2 with lc := lcEnabled (x.getLsbD 1) c.p2.lc }
        t := { c.t with lc := lcEnabled (x.getLsbD 2) c.t.lc }
        n := { c.n with lc := lcEnabled (x.getLsbD 3) c.n.lc }
        d := dmcWith c.d { reader with irqFlag := false } }))

/-- R122 with the layout R92: mode, inhibit, the clear of the flag with bit 6, the arming without bit 7, the immediate
events with bit 7, and nothing else. That a pending reset is kept with bit 7 and re-armed without it are the spec's
decisions D9, D10. -/
def Obligations.FrameCounterWrite : Prop :=
  ∀ (x : Byte) (s : State),
    let st : BlockState :=
      { cycle := s.st.cycle
        mode := if x.getLsbD 7 = true then .fiveStep else .fourStep
        interruptInhibit := x.getLsbD 6
        frameInterruptFlag := if x.getLsbD 6 = true then false else s.st.frameInterruptFlag
        irqChangeRequested := if x.getLsbD 6 = true then true else s.st.irqChangeRequested
        resetDelay := if x.getLsbD 7 = true then s.st.resetDelay else .pending 2 }
    IsWord (0x1401700 + x.toNat) (.wrFramecnt x) ∧
    Answers (.wrFramecnt x) s
      (if x.getLsbD 7 = true then
        { st := st, collab := halfFired (quarterFired s.collab), trace := quarterCalls ++ halfCalls, result := .nothing,
          schedule := s.schedule }
       else { st := st, collab := s.collab, trace := [], result := .nothing, schedule := s.schedule })

/-! Reads -/

/-- R130 with the layout R93: with every counter in its contract range, the read returns the byte of the state before
it, clears the frame flag, sets the latch, makes no call and changes nothing else. That bit 5 reads 0 is the spec's
decision D6. -/
def Obligations.StatusRead : Prop :=
  IsWord 0x0401500 .rdStatus ∧ ∀ s : State, s.collab.CountersSmall →
    ∃ b : Byte, statusBits s b ∧
      Answers .rdStatus s { s with
        st := { s.st with frameInterruptFlag := false, irqChangeRequested := true }, trace := [], result := .byte b }

/-- R182: a status read is refused when a length counter answers outside 0..255. -/
def Obligations.StatusReadRefusesCounterOutOfContract : Prop :=
  ∀ s : State, ¬ s.collab.CountersSmall → exec .rdStatus s = .refused .collaboratorOutOfContract

/-- R130: a second immediate read returns the same byte with bit 6 clear, and leaves the flag clear. -/
def Obligations.SecondStatusReadShowsFlagClear : Prop :=
  ∀ s : State, s.collab.CountersSmall →
    ∃ (t u : State) (b : Byte), Answers .rdStatus s t ∧ Answers .rdStatus t u ∧ t.result = .byte b ∧
      u.result = .byte (b &&& 0xBF#8) ∧ u.st.frameInterruptFlag = false

/-- R131: a read of any of the 21 write-only registers returns `$00` and changes nothing; each of the 21 has its word and
its read in the list. -/
def Obligations.WriteOnlyReadsReturnZero : Prop :=
  (∀ (i : Instr) (s : State), i ∈ writeOnlyReads → Answers i s (after s [] (.byte 0) s.collab)) ∧
  (∀ r : Reg, r ≠ .status → IsWord (r.addr.toNat * 256) r.read ∧ r.read ∈ writeOnlyReads)

/-! CLOCK -/

/-- R140, R141, R142, R143: a CLOCK on which no delayed reset fires and whose incremented count is no event count
clocks the five timers, adds one to the count modulo 2^16 and advances the delay. -/
def Obligations.ClockWithoutEvent : Prop :=
  ∀ s : State, s.st.resetDelay ≠ .pending 0 →
    s.st.cycle + 1 ≠ 3729#16 → s.st.cycle + 1 ≠ 7457#16 → s.st.cycle + 1 ≠ 11186#16 →
    ¬ (s.st.mode = .fourStep ∧ s.st.cycle + 1 = 14915#16) → ¬ (s.st.mode = .fiveStep ∧ s.st.cycle + 1 = 18641#16) →
    Answers .clk s { s with
      st := { s.st with cycle := s.st.cycle + 1, resetDelay := delayAdvanced s.st.resetDelay }
      collab := timersClocked s.collab, trace := timerCalls, result := .nothing }

/-- R143, R146, R147: in both modes, at Q1 and Q3 the quarter-frame event, at Q2 the quarter-frame and then the
half-frame event. -/
def Obligations.ClockAtFrameCounts : Prop :=
  ∀ s : State, s.st.resetDelay ≠ .pending 0 →
    (s.st.cycle + 1 = 3729#16 ∨ s.st.cycle + 1 = 11186#16 →
      Answers .clk s { s with
        st := { s.st with cycle := s.st.cycle + 1, resetDelay := delayAdvanced s.st.resetDelay }
        collab := quarterFired (timersClocked s.collab), trace := timerCalls ++ quarterCalls, result := .nothing }) ∧
    (s.st.cycle + 1 = 7457#16 →
      Answers .clk s { s with
        st := { s.st with cycle := s.st.cycle + 1, resetDelay := delayAdvanced s.st.resetDelay }
        collab := halfFired (quarterFired (timersClocked s.collab)), trace := timerCalls ++ quarterCalls ++ halfCalls
        result := .nothing })

/-- R143, R144, R145: at T4 in four-step mode both events, the frame interrupt unless inhibited, and the count to 0. -/
def Obligations.ClockAtFourStepTerminal : Prop :=
  ∀ s : State, s.st.resetDelay ≠ .pending 0 → s.st.mode = .fourStep → s.st.cycle + 1 = 14915#16 →
    Answers .clk s { s with
      st := { s.st with
        cycle := 0
        frameInterruptFlag := if s.st.interruptInhibit = true then s.st.frameInterruptFlag else true
        irqChangeRequested := if s.st.interruptInhibit = true then s.st.irqChangeRequested else true
        resetDelay := delayAdvanced s.st.resetDelay }
      collab := halfFired (quarterFired (timersClocked s.collab)), trace := timerCalls ++ quarterCalls ++ halfCalls
      result := .nothing }

/-- R143, R145: at T5 in five-step mode both events and the count to 0, and no interrupt. -/
def Obligations.ClockAtFiveStepTerminal : Prop :=
  ∀ s : State, s.st.resetDelay ≠ .pending 0 → s.st.mode = .fiveStep → s.st.cycle + 1 = 18641#16 →
    Answers .clk s { s with
      st := { s.st with cycle := 0, resetDelay := delayAdvanced s.st.resetDelay }
      collab := halfFired (quarterFired (timersClocked s.collab)), trace := timerCalls ++ quarterCalls ++ halfCalls
      result := .nothing }

/-- R142: on the CLOCK that finds `Pending(0)` the delayed reset fires, with both events exactly in five-step mode, and
the increment leaves the count at 1. -/
def Obligations.ClockFiresDelayedReset : Prop :=
  ∀ s : State, s.st.resetDelay = .pending 0 →
    Answers .clk s (match s.st.mode with
      | .fourStep => { s with
          st := { s.st with cycle := 1, resetDelay := .idle }
          collab := timersClocked s.collab, trace := timerCalls, result := .nothing }
      | .fiveStep => { s with
          st := { s.st with cycle := 1, resetDelay := .idle }
          collab := halfFired (quarterFired (timersClocked s.collab)), trace := timerCalls ++ quarterCalls ++ halfCalls
          result := .nothing })

/-- R142, R205: whatever the state, a frame-counter write without bit 7 and three CLOCKs leave the count at 1, the delay
idle, and the four-step mode. -/
def Obligations.DelayedResetFiresOnThirdClock : Prop :=
  ∀ (x : Byte) (s : State), x.getLsbD 7 = false →
    ∃ t, execAll [.wrFramecnt x, .clk, .clk, .clk] s = .next t ∧ t.st.cycle = 1 ∧ t.st.resetDelay = .idle ∧
      t.st.mode = .fourStep

/-- R206, R122: a five-step write while a delayed reset is pending, whatever its delay, fires both events at once and
leaves the delay; when the delay runs out, on the (n+1)th CLOCK after the write, the reset fires them again. So do an arming
write and a five-step write straight after it, on the third CLOCK. -/
def Obligations.FiveStepWriteWhilePendingClocksTwice : Prop :=
  (∀ (y : Byte) (s : State) (n : Fin 3), y.getLsbD 7 = true → s.st.resetDelay = .pending n →
    ∃ t u, Answers (.wrFramecnt y) s t ∧ t.trace = quarterCalls ++ halfCalls ∧ t.st.resetDelay = .pending n ∧
      execAll (List.replicate (n.val + 1) .clk) t = .next u ∧ u.trace = timerCalls ++ quarterCalls ++ halfCalls ∧
      u.st.cycle = 1 ∧ u.st.resetDelay = .idle ∧ u.st.mode = .fiveStep) ∧
  (∀ (x y : Byte) (s : State), x.getLsbD 7 = false → y.getLsbD 7 = true →
    ∃ t u, execAll [.wrFramecnt x, .wrFramecnt y] s = .next t ∧ t.trace = quarterCalls ++ halfCalls ∧
      execAll [.clk, .clk, .clk] t = .next u ∧ u.trace = timerCalls ++ quarterCalls ++ halfCalls ∧ u.st.cycle = 1 ∧
      u.st.resetDelay = .idle ∧ u.st.mode = .fiveStep)

/-- R203, R145: from a state with the count at 0, four-step, not inhibited, idle (as after construction) and the flag
clear, the first 14914 CLOCKs leave the flag and the latch as they are and the count at the number of CLOCKs; the
14915th sets the flag and the latch and puts the count to 0. -/
def Obligations.FirstFrameInterruptOnClock14915 : Prop :=
  ∀ s : State, s.st.cycle = 0 → s.st.mode = .fourStep → s.st.interruptInhibit = false → s.st.resetDelay = .idle →
    s.st.frameInterruptFlag = false →
    (∀ n : Nat, n < 14915 → ∃ t, execAll (List.replicate n .clk) s = .next t ∧
      t.st = { s.st with cycle := BitVec.ofNat 16 n }) ∧
    (∃ t, execAll (List.replicate 14915 .clk) s = .next t ∧
      t.st = { s.st with cycle := 0, frameInterruptFlag := true, irqChangeRequested := true })

/-- R145: with no other operation, the five-step schedule repeats every 18641 CLOCKs and raises no interrupt. -/
def Obligations.FiveStepScheduleRepeats : Prop :=
  ∀ s : State, s.st.cycle = 0 → s.st.mode = .fiveStep → s.st.resetDelay = .idle →
    (∀ n : Nat, n < 18641 → ∃ t, execAll (List.replicate n .clk) s = .next t ∧
      t.st = { s.st with cycle := BitVec.ofNat 16 n }) ∧
    (∃ t, execAll (List.replicate 18641 .clk) s = .next t ∧ t.st = s.st)

/-- R144: with the inhibit set, no number of CLOCKs changes the frame flag or the latch; and in five-step mode no number
of CLOCKs does. -/
def Obligations.InhibitedOrFiveStepClocksRaiseNothing : Prop :=
  ∀ (n : Nat) (s : State), (s.st.interruptInhibit = true ∨ s.st.mode = .fiveStep) →
    ∃ t, execAll (List.replicate n .clk) s = .next t ∧ t.st.frameInterruptFlag = s.st.frameInterruptFlag ∧
      t.st.irqChangeRequested = s.st.irqChangeRequested

/-! Length counters -/

/-- R37, R38, R39, R40: what each call does to the length counter it is made on, and that it changes no other length
counter. -/
def Obligations.LengthCounterContract : Prop :=
  ∀ (i : LcId) (c : Collab),
    (∀ b, (c.perform (.setHalt i b)).lc i = { c.lc i with halt := b }) ∧
    (∀ b, (c.perform (.setEnabled i b)).lc i = lcEnabled b (c.lc i)) ∧
    (∀ x : BitVec 5, (c.perform (.reloadCounter i x)).lc i =
      { c.lc i with
        counter := if (c.lc i).enabled = true ∨ Config.lcReloadWhenDisabled = true then (Config.lengthTable x).toNat
                   else (c.lc i).counter }) ∧
    (c.perform (.decrement i)).lc i =
      { c.lc i with
        counter := if (c.lc i).counter ≠ 0 ∧ (c.lc i).halt = false then (c.lc i).counter - 1 else (c.lc i).counter } ∧
    (∀ (j : LcId) (b : Bool) (x : BitVec 5), j ≠ i →
      (c.perform (.setHalt i b)).lc j = c.lc j ∧ (c.perform (.setEnabled i b)).lc j = c.lc j ∧
      (c.perform (.reloadCounter i x)).lc j = c.lc j ∧ (c.perform (.decrement i)).lc j = c.lc j)

/-- R38, R39, R104, R108, R112, R116, R130: for each of the four length counters, after a status write that enables it and the
write that loads it, a status read shows in its bit whether the table entry is nonzero; after a status write that disables
it, its bit reads 0. -/
def Obligations.LengthLoadShowsInStatus : Prop :=
  ∀ (i : LcId) (s : State) (x y z : Byte), s.collab.CountersSmall → x.getLsbD (statusBit i) = true →
    z.getLsbD (statusBit i) = false →
    ∃ (t u : State) (a b : Byte),
      execAll [.wrStatus x, lengthWrite i y, .rdStatus] s = .next t ∧ t.result = .byte a ∧
      (a.getLsbD (statusBit i) = true ↔ Config.lengthTable (y.extractLsb' 3 5) ≠ 0) ∧
      execAll [.wrStatus z, .rdStatus] t = .next u ∧ u.result = .byte b ∧ b.getLsbD (statusBit i) = false

/-! Interrupt arbiter -/

/-- R170: CLRQ clears the latch and the reader's change request, and nothing else: no IRQ flag, and no answer to
`get_output` (notes/assumptions/21.md). What the DMC call clears is the spec's decision D42. -/
def Obligations.ClrqClearsRequestsOnly : Prop :=
  IsWord 0x3000000 .clrq ∧ ∀ s : State, Answers .clrq s
    { s with st := { s.st with irqChangeRequested := false }
             collab := { s.collab with d := dmcWith s.collab.d { s.collab.d.reader with changeRequested := false } }
             trace := [.clearChangeRequest], result := .nothing }

/-- R171, R172: ISCR and PIN return the OR of their two sources and change nothing. -/
def Obligations.IscrAndPinReadTheOr : Prop :=
  IsWord 0x3000100 .iscr ∧ IsWord 0x3000200 .pin ∧ ∀ s : State,
    (∃ b, Answers .iscr s (after s [] (.bool b) s.collab) ∧
      (b = true ↔ s.st.irqChangeRequested = true ∨ s.collab.d.reader.changeRequested = true)) ∧
    (∃ b, Answers .pin s (after s [] (.bool b) s.collab) ∧
      (b = true ↔ s.st.frameInterruptFlag = true ∨ s.collab.d.reader.irqFlag = true))

/-- R173, R188: with the DMC IRQ flag clear, a status read and CLRQ end a service round: the line is low and no change
is requested. -/
def Obligations.ServiceRoundDeassertsTheLine : Prop :=
  ∀ s : State, s.collab.CountersSmall → s.collab.d.reader.irqFlag = false →
    ∃ t u v, execAll [.rdStatus, .clrq] s = .next t ∧ Answers .iscr t u ∧ u.result = .bool false ∧
      Answers .pin t v ∧ v.result = .bool false

/-! Mixer -/

/-- R160, R161, R162: with answers in contract, MIX returns the formula's value evaluated in the format in the order
written, and changes nothing; in both formats a literal is rounded and each addition and division is one correctly rounded
operation, round-to-nearest-even. The carrier of amplitudes is the model's, and so is the free value that is returned when
not all the answers are values of `MIX_FORMAT`: a value of the format in [0, 1] within the tolerance of R162 of the value
of R161 (notes/assumptions/10.md). -/
def Obligations.MixReturnsTheSample : Prop :=
  (∀ f : MixFormat, RoundsToNearest f ∧ AddsCorrectly f ∧ DividesCorrectly f ∧ CarriesExactly f) ∧
  (∀ (f : MixFormat) (o : Outputs) (p1 p2 t n d : Rat), HaveValues o p1 p2 t n d →
    ∃ q, (Fp.unpack (o.unstatedSample f)).toRat? = some q ∧ FormatValue f q ∧ 0 ≤ q ∧ q ≤ 1 ∧
      Close q (mixerExact p1 p2 t n d)) ∧
  ∀ s : State, s.collab.outputs.inContract = true →
    let f := Config.mixFormat
    let o := s.collab.outputs
    let p1 := Fp.unpack o.p1
    let p2 := Fp.unpack o.p2
    let t := Fp.unpack o.t
    let n := Fp.unpack o.n
    let d := Fp.unpack o.d
    let zero : Fp := .fin false 0 f.minExp
    let pulse : Fp :=
      if p1.isZero = true ∧ p2.isZero = true then zero
      else Fp.div f (Fp.lit f 9588 100) (Fp.add f (Fp.div f (Fp.lit f 8128 1) (Fp.add f p1 p2)) (Fp.lit f 100 1))
    let sum := Fp.add f (Fp.add f (Fp.div f t (Fp.lit f 8227 1)) (Fp.div f n (Fp.lit f 12241 1)))
      (Fp.div f d (Fp.lit f 22638 1))
    let tnd : Fp :=
      if t.isZero = true ∧ n.isZero = true ∧ d.isZero = true then zero
      else Fp.div f (Fp.lit f 15979 100) (Fp.add f (Fp.div f (Fp.lit f 1 1) sum) (Fp.lit f 100 1))
    Answers .mix s
      (after s [] (.sample (if o.areOf f = true then (Fp.add f pulse tnd).pack else o.unstatedSample f)) s.collab)

/-- R164, R182: MIX refuses amplitudes when one of them is not a finite number of its range, and only then. Refusing
is the spec's decision D22. -/
def Obligations.MixRefusesOutOfContract : Prop :=
  ∀ s : State,
    (¬ amplitudesIn s.collab.outputs → exec .mix s = .refused .amplitudeOutOfContract) ∧
    (amplitudesIn s.collab.outputs → exec .mix s ≠ .refused .amplitudeOutOfContract)

/-- R163: on in-contract inputs of either format's operations, the Mixer never returns NaN. (Of R163 only this is
stated: for inputs very near 0 a quotient overflows, or a sum underflows to zero and is divided by:
notes/assumptions/11.md.) -/
def Obligations.MixerNeverReturnsNan : Prop :=
  ∀ (f : MixFormat) (p1 p2 t n d : Fp), Machine.inContract p1 p2 t n d = true → mixer f p1 p2 t n d ≠ .nan

/-- R165, R162: over the rationals, the outputs lie between 0 and their values at the largest inputs, and those values are
below 0.258483106, 0.7415162452 and 0.999999351 (R165 prints 0.741516245 for the second, which is the value rounded to 9
places). On in-contract inputs the Mixer of either format is finite, not below 0 and close to that value; so is the sample
that MIX returns. R162's relative 1e-6 is stated with 1e-30 beside it, since inputs very near 0 take the evaluation of R162
itself further off (notes/assumptions/11.md; the carrier of amplitudes: 10.md). -/
def Obligations.MixerOutputRange : Prop :=
  (∀ p1 p2 t n d : Rat, 0 ≤ p1 → p1 ≤ 15 → 0 ≤ p2 → p2 ≤ 15 → 0 ≤ t → t ≤ 15 → 0 ≤ n → n ≤ 15 → 0 ≤ d → d ≤ 127 →
    0 ≤ pulseOutExact p1 p2 ∧ pulseOutExact p1 p2 ≤ pulseOutExact 15 15 ∧ pulseOutExact p1 p2 ≤ 258483106 / 1000000000 ∧
    0 ≤ tndOutExact t n d ∧ tndOutExact t n d ≤ tndOutExact 15 15 127 ∧
    tndOutExact t n d ≤ 7415162452 / 10000000000 ∧
    0 ≤ mixerExact p1 p2 t n d ∧ mixerExact p1 p2 t n d ≤ 999999351 / 1000000000) ∧
  (∀ (f : MixFormat) (x1 x2 x3 x4 x5 : Fp) (p1 p2 t n d : Rat), InputValues x1 x2 x3 x4 x5 p1 p2 t n d →
    ∃ q, (mixer f x1 x2 x3 x4 x5).toRat? = some q ∧ 0 ≤ q ∧ Close q (mixerExact p1 p2 t n d)) ∧
  (∀ (s : State) (p1 p2 t n d : Rat), HaveValues s.collab.outputs p1 p2 t n d →
    ∃ (u : State) (a : Amp) (q : Rat), Answers .mix s u ∧ u.result = .sample a ∧ (Fp.unpack a).toRat? = some q ∧
      0 ≤ q ∧ Close q (mixerExact p1 p2 t n d))

/-- R165: each of the two outputs is non-decreasing in each of its inputs. -/
def Obligations.MixerIsMonotone : Prop :=
  (∀ p1 p2 q1 q2 : Rat, 0 ≤ p1 → 0 ≤ p2 → p1 ≤ q1 → p2 ≤ q2 → pulseOutExact p1 p2 ≤ pulseOutExact q1 q2) ∧
  (∀ t n d t' n' d' : Rat, 0 ≤ t → 0 ≤ n → 0 ≤ d → t ≤ t' → n ≤ n' → d ≤ d' →
    tndOutExact t n d ≤ tndOutExact t' n' d')

/-! Whole-machine rules -/

/-- R44, R9: every operation changes collaborator state by the calls of its trace, in order, and by nothing else. -/
def Obligations.CollaboratorsChangeOnlyByTheTrace : Prop :=
  ∀ (i : Instr) (s t : State), Answers i s t → t.collab = t.trace.foldl (fun c k => c.perform k) s.collab

/-- R100: among the writes only the frame-counter write changes block state; and no write changes the count. -/
def Obligations.OnlyFrameCounterWriteWritesBlockState : Prop :=
  ∀ (r : Reg) (x : Byte) (s t : State), Answers (r.write x) s t →
    t.st.cycle = s.st.cycle ∧ (r ≠ .framecnt → t.st = s.st)

/-- R25, R24, R22, R28: only a frame-counter write changes the inhibit or the mode, only CLOCK changes the count, and only
these two change the delay. -/
def Obligations.HiddenStateIsWrittenOnlyByItsWriters : Prop :=
  ∀ (i : Instr) (s t : State), Answers i s t →
    ((∀ x, i ≠ .wrFramecnt x) → t.st.interruptInhibit = s.st.interruptInhibit ∧ t.st.mode = s.st.mode) ∧
    (i ≠ .clk → t.st.cycle = s.st.cycle) ∧
    (i ≠ .clk → (∀ x, i ≠ .wrFramecnt x) → t.st.resetDelay = s.st.resetDelay)

/-- R26: the frame flag is set only by the CLOCK that reaches T4 in four-step mode uninhibited, and cleared only by a
status read or a frame-counter write with bit 6; and both clearing operations always leave it clear. -/
def Obligations.FrameFlagChangesOnlyByItsPaths : Prop :=
  ∀ (i : Instr) (s t : State), Answers i s t →
    (s.st.frameInterruptFlag = false → t.st.frameInterruptFlag = true →
      i = .clk ∧ s.st.mode = .fourStep ∧ s.st.interruptInhibit = false ∧ s.st.cycle + 1 = 14915#16 ∧ t.st.cycle = 0) ∧
    (s.st.frameInterruptFlag = true → t.st.frameInterruptFlag = false →
      i = .rdStatus ∨ ∃ x : Byte, i = .wrFramecnt x ∧ x.getLsbD 6 = true) ∧
    (i = .rdStatus → t.st.frameInterruptFlag = false) ∧
    (∀ x : Byte, i = .wrFramecnt x → x.getLsbD 6 = true → t.st.frameInterruptFlag = false)

/-- R27: whenever an operation changes the frame flag the latch is set after it, and only CLRQ clears the latch. -/
def Obligations.LatchFollowsTheFlagAndOnlyClrqClearsIt : Prop :=
  ∀ (i : Instr) (s t : State), Answers i s t →
    (t.st.frameInterruptFlag ≠ s.st.frameInterruptFlag → t.st.irqChangeRequested = true) ∧
    (s.st.irqChangeRequested = true → i ≠ .clrq → t.st.irqChangeRequested = true)

/-- R29: no operation returns the count, the mode, the inhibit or the delay: two states that differ only in these give
equal return values. -/
def Obligations.HiddenStateIsNotReturned : Prop :=
  ∀ (i : Instr) (s : State) (st' : BlockState) (t t' : State),
    st'.frameInterruptFlag = s.st.frameInterruptFlag → st'.irqChangeRequested = s.st.irqChangeRequested →
    Answers i s t → Answers i { s with st := st' } t' → t.result = t'.result

/-- R94: the ignored bits of a data byte have no effect: two bytes that agree on the bits used give the same outcome. -/
def Obligations.IgnoredBitsHaveNoEffect : Prop :=
  ∀ (x y : Byte) (s : State),
    (x.extractLsb' 6 2 = y.extractLsb' 6 2 → exec (.wrFramecnt x) s = exec (.wrFramecnt y) s) ∧
    (x.extractLsb' 0 5 = y.extractLsb' 0 5 → exec (.wrStatus x) s = exec (.wrStatus y) s) ∧
    (x.extractLsb' 0 6 = y.extractLsb' 0 6 → exec (.wrNoictrl x) s = exec (.wrNoictrl y) s) ∧
    (x.extractLsb' 0 4 = y.extractLsb' 0 4 → x.getLsbD 7 = y.getLsbD 7 → exec (.wrNoiper x) s = exec (.wrNoiper y) s) ∧
    (x.extractLsb' 3 5 = y.extractLsb' 3 5 → exec (.wrNoilen x) s = exec (.wrNoilen y) s) ∧
    (x.extractLsb' 0 4 = y.extractLsb' 0 4 → x.extractLsb' 6 2 = y.extractLsb' 6 2 →
      exec (.wrDmcctrl x) s = exec (.wrDmcctrl y) s) ∧
    (x.extractLsb' 0 7 = y.extractLsb' 0 7 → exec (.wrDmcload x) s = exec (.wrDmcload y) s) ∧
    exec (.wrTriunused x) s = exec (.wrTriunused y) s ∧ exec (.wrNoiunused x) s = exec (.wrNoiunused y) s

/-- R180, R182: no operation faults; every operation but a status read and MIX completes from every state; those two are
refused only for the reasons of R182. -/
def Obligations.OnlyStatusReadAndMixCanRefuse : Prop :=
  ∀ (i : Instr) (s : State),
    (∃ t, Answers i s t) ∨
    (i = .rdStatus ∧ ¬ s.collab.CountersSmall ∧ exec i s = .refused .collaboratorOutOfContract) ∨
    (i = .mix ∧ s.collab.outputs.inContract = false ∧ exec i s = .refused .amplitudeOutOfContract)

/-! Invariants -/

/-- The invariant of the machine is kept by every step from every state that has it: below the terminal count when no
reset is pending, an inhibited flag is clear, the counters are in their range. -/
def Obligations.EveryStepKeepsTheInvariant : Prop :=
  ∀ s t : State, s.Inv → step s = .next t → t.Inv

/-- The invariant holds after construction, for every `COLLAB_INIT` whose counters are in their range, and for the
model's own, which is the model's choice (notes/assumptions/3.md). -/
def Obligations.ConstructionHasTheInvariant : Prop :=
  (∀ c : Collab, c.CountersSmall → (State.construct c).Inv) ∧ State.reset.Inv

/-- R29 (a) and (b), R184: what the invariant gives. -/
def Obligations.InvariantGivesTheSpecsInvariants : Prop :=
  ∀ s : State, s.Inv →
    (s.st.mode = .fourStep → 14915 < s.st.cycle.toNat → s.st.resetDelay ≠ .idle) ∧
    (18641 < s.st.cycle.toNat → s.st.resetDelay ≠ .idle) ∧
    (s.st.interruptInhibit = true → s.st.frameInterruptFlag = false)

/-- R29: as long as no pending delayed reset is re-armed, the count never exceeds T5 + 1 = 18642. -/
def Obligations.CountStaysBoundedWithoutRearming : Prop :=
  (∀ (i : Instr) (s t : State), s.st.CountBounded → ¬ Rearms i s.st → Answers i s t → t.st.CountBounded) ∧
  (∀ st : BlockState, st.CountBounded → st.cycle.toNat ≤ 18642) ∧
  BlockState.reset.CountBounded

/-- R160, D40: the answers MIX reads stay those of `GetOutput_c` on the channels' states, at every step (the model's
holding of them: notes/assumptions/4.md, 21.md); and an operation that is no CLOCK and no write between two MIXes leaves
the second to return what the first did. -/
def Obligations.StepsKeepTheOutputsCurrent : Prop :=
  (∀ s t : State, s.collab.OutputsCurrent → step s = .next t → t.collab.OutputsCurrent) ∧
  (∀ (i : Instr) (s t u : State), i ≠ .clk → (∀ (r : Reg) (x : Byte), i ≠ r.write x) → Answers i s t →
    Answers .mix s u → ∃ v, Answers .mix t v ∧ v.result = u.result)
end

