-- ==== Sys2Proof/Laws/Decode.lean ====
section
/-! SUPPORT. The fields of an operation word, and the register table read in both directions. -/

namespace Sys2Proof

@[simp] theorem Opw.kind_make (k : BitVec 2) (a : BusAddr) (d : Byte) : (Opw.make k a d).kind = k := by
  apply BitVec.eq_of_toNat_eq
  simp only [Opw.kind, Opw.make, BitVec.extractLsb'_toNat, BitVec.toNat_append, Nat.shiftRight_eq_div_pow,
    Nat.shiftLeft_eq]
  have := k.isLt; have := a.isLt; have := d.isLt
  rw [Nat.or_comm, ← Nat.shiftLeft_eq, Nat.or_comm, ← Nat.shiftLeft_add_eq_or_of_lt d.isLt, ← Nat.shiftLeft_eq,
    ← Nat.shiftLeft_add_eq_or_of_lt a.isLt]
  simp only [Nat.shiftLeft_eq]
  omega

@[simp] theorem Opw.addr_make (k : BitVec 2) (a : BusAddr) (d : Byte) : (Opw.make k a d).addr = a := by
  apply BitVec.eq_of_toNat_eq
  simp only [Opw.addr, Opw.make, BitVec.extractLsb'_toNat, BitVec.toNat_append, Nat.shiftRight_eq_div_pow]
  rw [← Nat.shiftLeft_add_eq_or_of_lt d.isLt, ← Nat.shiftLeft_add_eq_or_of_lt a.isLt]
  have := k.isLt; have := a.isLt; have := d.isLt
  simp only [Nat.shiftLeft_eq]
  omega

@[simp] theorem Opw.data_make (k : BitVec 2) (a : BusAddr) (d : Byte) : (Opw.make k a d).data = d := by
  apply BitVec.eq_of_toNat_eq
  simp only [Opw.data, Opw.make, BitVec.extractLsb'_toNat, BitVec.toNat_append, Nat.shiftRight_eq_div_pow]
  rw [← Nat.shiftLeft_add_eq_or_of_lt d.isLt, ← Nat.shiftLeft_add_eq_or_of_lt a.isLt]
  have := k.isLt; have := a.isLt; have := d.isLt
  simp only [Nat.shiftLeft_eq]
  omega

/-- The number of an operation word from its fields. -/
theorem Opw.toNat_make (k : BitVec 2) (a : BusAddr) (d : Byte) :
    (Opw.make k a d).toNat = k.toNat * 2 ^ 24 + a.toNat * 2 ^ 8 + d.toNat := by
  simp only [Opw.make, BitVec.toNat_append]
  rw [← Nat.shiftLeft_add_eq_or_of_lt d.isLt, ← Nat.shiftLeft_add_eq_or_of_lt a.isLt]
  simp only [Nat.shiftLeft_eq]
  omega

/-- An operation word is made of its fields. -/
theorem Opw.make_fields (w : Opw) : Opw.make w.kind w.addr w.data = w := by
  apply BitVec.eq_of_toNat_eq
  rw [Opw.toNat_make]
  simp only [Opw.kind, Opw.addr, Opw.data, BitVec.extractLsb'_toNat, Nat.shiftRight_eq_div_pow]
  have := w.isLt
  omega

/-- The address of a register leads back to it. -/
@[simp] theorem Reg.atAddr_addr (r : Reg) : Reg.atAddr r.addr = some r := by
  cases r <;> rfl

/-- A register found at an address has that address. -/
theorem Reg.addr_of_atAddr {a : BusAddr} {r : Reg} (h : Reg.atAddr a = some r) : r.addr = a := by
  have := List.find?_some h
  simpa using this

/-- Decoding an operation word is decoding its number. -/
theorem decode_toNat (w : Opw) : decode w.toNat = decodeOpw w := by
  simp only [decode]
  rw [if_pos w.isLt]
  simp

/-- Legality read off the three fields. -/
theorem legalOpw_make (k : BitVec 2) (a : BusAddr) (d : Byte) :
    legalOpw (Opw.make k a d) =
      if k.toNat == 0 then inEnumeration a && d == 0
      else if k.toNat == 1 then inEnumeration a
      else if k.toNat == 2 then a == 0 && d == 0
      else decide (a.toNat ≤ 3) && d == 0 := by
  have h1 : (Opw.make k a d).extractLsb' 24 2 = k := Opw.kind_make k a d
  have h2 : (Opw.make k a d).extractLsb' 8 16 = a := Opw.addr_make k a d
  have h3 : (Opw.make k a d).extractLsb' 0 8 = d := Opw.data_make k a d
  simp only [legalOpw, h1, h2, h3]

end Sys2Proof
end

