-- ==== Sys2Proof/Laws/State.lean ====
section
/-! SUPPORT. One lemma per field per update of the state, so that no proof unfolds a record update. -/

namespace Sys2Proof.Machine

/-- Two states are equal when their five fields are. -/
theorem State.eq_of_fields {s t : State} (h1 : s.st = t.st) (h2 : s.collab = t.collab) (h3 : s.trace = t.trace)
    (h4 : s.result = t.result) (h5 : s.schedule = t.schedule) : s = t := by
  cases s; cases t; simp_all

@[simp] theorem State.begin_st (s : State) : s.begin.st = s.st := rfl
@[simp] theorem State.begin_collab (s : State) : s.begin.collab = s.collab := rfl
@[simp] theorem State.begin_trace (s : State) : s.begin.trace = [] := rfl
@[simp] theorem State.begin_result (s : State) : s.begin.result = .nothing := rfl
@[simp] theorem State.begin_schedule (s : State) : s.begin.schedule = s.schedule := rfl

@[simp] theorem State.returning_st (r : Result) (s : State) : (s.returning r).st = s.st := rfl
@[simp] theorem State.returning_collab (r : Result) (s : State) : (s.returning r).collab = s.collab := rfl
@[simp] theorem State.returning_trace (r : Result) (s : State) : (s.returning r).trace = s.trace := rfl
@[simp] theorem State.returning_result (r : Result) (s : State) : (s.returning r).result = r := rfl
@[simp] theorem State.returning_schedule (r : Result) (s : State) : (s.returning r).schedule = s.schedule := rfl

@[simp] theorem State.onSt_st (f : BlockState → BlockState) (s : State) : (s.onSt f).st = f s.st := rfl
@[simp] theorem State.onSt_collab (f : BlockState → BlockState) (s : State) : (s.onSt f).collab = s.collab := rfl
@[simp] theorem State.onSt_trace (f : BlockState → BlockState) (s : State) : (s.onSt f).trace = s.trace := rfl
@[simp] theorem State.onSt_result (f : BlockState → BlockState) (s : State) : (s.onSt f).result = s.result := rfl
@[simp] theorem State.onSt_schedule (f : BlockState → BlockState) (s : State) : (s.onSt f).schedule = s.schedule := rfl

@[simp] theorem State.call_st (k : Call) (s : State) : (s.call k).st = s.st := rfl
@[simp] theorem State.call_collab (k : Call) (s : State) : (s.call k).collab = s.collab.perform k := rfl
@[simp] theorem State.call_trace (k : Call) (s : State) : (s.call k).trace = s.trace ++ [k] := rfl
@[simp] theorem State.call_result (k : Call) (s : State) : (s.call k).result = s.result := rfl
@[simp] theorem State.call_schedule (k : Call) (s : State) : (s.call k).schedule = s.schedule := rfl

@[simp] theorem State.calls_st (ks : List Call) (s : State) : (s.calls ks).st = s.st := by
  induction ks generalizing s with
  | nil => rfl
  | cons k ks ih => simp [State.calls, ih]

@[simp] theorem State.calls_result (ks : List Call) (s : State) : (s.calls ks).result = s.result := by
  induction ks generalizing s with
  | nil => rfl
  | cons k ks ih => simp [State.calls, ih]

@[simp] theorem State.calls_schedule (ks : List Call) (s : State) : (s.calls ks).schedule = s.schedule := by
  induction ks generalizing s with
  | nil => rfl
  | cons k ks ih => simp [State.calls, ih]

@[simp] theorem State.calls_trace (ks : List Call) (s : State) : (s.calls ks).trace = s.trace ++ ks := by
  induction ks generalizing s with
  | nil => simp [State.calls]
  | cons k ks ih => simp [State.calls, ih]

/-- Calls change the collaborators one after another. -/
@[simp] theorem State.calls_collab (ks : List Call) (s : State) :
    (s.calls ks).collab = ks.foldl (fun c k => c.perform k) s.collab := by
  induction ks generalizing s with
  | nil => rfl
  | cons k ks ih => simp [State.calls, ih]

@[simp] theorem State.dmcActivity_st (r : DmcReader) (s : State) : (s.dmcActivity r).st = s.st := rfl
@[simp] theorem State.dmcActivity_trace (r : DmcReader) (s : State) : (s.dmcActivity r).trace = s.trace := rfl
@[simp] theorem State.dmcActivity_result (r : DmcReader) (s : State) : (s.dmcActivity r).result = s.result := rfl
@[simp] theorem State.dmcActivity_schedule (r : DmcReader) (s : State) : (s.dmcActivity r).schedule = s.schedule := rfl

@[simp] theorem BlockState.setCycle_cycle (c : BitVec 16) (st : BlockState) : (st.setCycle c).cycle = c := rfl
@[simp] theorem BlockState.setCycle_mode (c : BitVec 16) (st : BlockState) : (st.setCycle c).mode = st.mode := rfl
@[simp] theorem BlockState.setCycle_inhibit (c : BitVec 16) (st : BlockState) :
    (st.setCycle c).interruptInhibit = st.interruptInhibit := rfl
@[simp] theorem BlockState.setCycle_flag (c : BitVec 16) (st : BlockState) :
    (st.setCycle c).frameInterruptFlag = st.frameInterruptFlag := rfl
@[simp] theorem BlockState.setCycle_latch (c : BitVec 16) (st : BlockState) :
    (st.setCycle c).irqChangeRequested = st.irqChangeRequested := rfl
@[simp] theorem BlockState.setCycle_delay (c : BitVec 16) (st : BlockState) :
    (st.setCycle c).resetDelay = st.resetDelay := rfl

@[simp] theorem BlockState.setDelay_cycle (r : ResetDelay) (st : BlockState) : (st.setDelay r).cycle = st.cycle := rfl
@[simp] theorem BlockState.setDelay_mode (r : ResetDelay) (st : BlockState) : (st.setDelay r).mode = st.mode := rfl
@[simp] theorem BlockState.setDelay_inhibit (r : ResetDelay) (st : BlockState) :
    (st.setDelay r).interruptInhibit = st.interruptInhibit := rfl
@[simp] theorem BlockState.setDelay_flag (r : ResetDelay) (st : BlockState) :
    (st.setDelay r).frameInterruptFlag = st.frameInterruptFlag := rfl
@[simp] theorem BlockState.setDelay_latch (r : ResetDelay) (st : BlockState) :
    (st.setDelay r).irqChangeRequested = st.irqChangeRequested := rfl
@[simp] theorem BlockState.setDelay_delay (r : ResetDelay) (st : BlockState) : (st.setDelay r).resetDelay = r := rfl

@[simp] theorem BlockState.clearFrameFlag_cycle (st : BlockState) : st.clearFrameFlag.cycle = st.cycle := rfl
@[simp] theorem BlockState.clearFrameFlag_mode (st : BlockState) : st.clearFrameFlag.mode = st.mode := rfl
@[simp] theorem BlockState.clearFrameFlag_inhibit (st : BlockState) :
    st.clearFrameFlag.interruptInhibit = st.interruptInhibit := rfl
@[simp] theorem BlockState.clearFrameFlag_flag (st : BlockState) : st.clearFrameFlag.frameInterruptFlag = false := rfl
@[simp] theorem BlockState.clearFrameFlag_latch (st : BlockState) : st.clearFrameFlag.irqChangeRequested = true := rfl
@[simp] theorem BlockState.clearFrameFlag_delay (st : BlockState) : st.clearFrameFlag.resetDelay = st.resetDelay := rfl

@[simp] theorem BlockState.clearLatch_cycle (st : BlockState) : st.clearLatch.cycle = st.cycle := rfl
@[simp] theorem BlockState.clearLatch_mode (st : BlockState) : st.clearLatch.mode = st.mode := rfl
@[simp] theorem BlockState.clearLatch_inhibit (st : BlockState) :
    st.clearLatch.interruptInhibit = st.interruptInhibit := rfl
@[simp] theorem BlockState.clearLatch_flag (st : BlockState) :
    st.clearLatch.frameInterruptFlag = st.frameInterruptFlag := rfl
@[simp] theorem BlockState.clearLatch_latch (st : BlockState) : st.clearLatch.irqChangeRequested = false := rfl
@[simp] theorem BlockState.clearLatch_delay (st : BlockState) : st.clearLatch.resetDelay = st.resetDelay := rfl

@[simp] theorem BlockState.frameIrq_cycle (st : BlockState) : st.frameIrq.cycle = st.cycle := by
  unfold frameIrq; split <;> rfl
@[simp] theorem BlockState.frameIrq_mode (st : BlockState) : st.frameIrq.mode = st.mode := by
  unfold frameIrq; split <;> rfl
@[simp] theorem BlockState.frameIrq_inhibit (st : BlockState) : st.frameIrq.interruptInhibit = st.interruptInhibit := by
  unfold frameIrq; split <;> rfl
@[simp] theorem BlockState.frameIrq_delay (st : BlockState) : st.frameIrq.resetDelay = st.resetDelay := by
  unfold frameIrq; split <;> rfl
@[simp] theorem BlockState.frameIrq_flag (st : BlockState) :
    st.frameIrq.frameInterruptFlag = (st.frameInterruptFlag || !st.interruptInhibit) := by
  unfold frameIrq; split <;> simp_all
@[simp] theorem BlockState.frameIrq_latch (st : BlockState) :
    st.frameIrq.irqChangeRequested = (st.irqChangeRequested || !st.interruptInhibit) := by
  unfold frameIrq; split <;> simp_all

@[simp] theorem BlockState.writeFrameCounter_cycle (d : Byte) (st : BlockState) :
    (st.writeFrameCounter d).cycle = st.cycle := by
  unfold writeFrameCounter; split <;> rfl
@[simp] theorem BlockState.writeFrameCounter_mode (d : Byte) (st : BlockState) :
    (st.writeFrameCounter d).mode = modeField d := by
  unfold writeFrameCounter; split <;> rfl
@[simp] theorem BlockState.writeFrameCounter_inhibit (d : Byte) (st : BlockState) :
    (st.writeFrameCounter d).interruptInhibit = inhibitField d := by
  unfold writeFrameCounter; split <;> rfl
@[simp] theorem BlockState.writeFrameCounter_flag (d : Byte) (st : BlockState) :
    (st.writeFrameCounter d).frameInterruptFlag = (st.frameInterruptFlag && !inhibitField d) := by
  unfold writeFrameCounter; split <;> simp_all
@[simp] theorem BlockState.writeFrameCounter_latch (d : Byte) (st : BlockState) :
    (st.writeFrameCounter d).irqChangeRequested = (st.irqChangeRequested || inhibitField d) := by
  unfold writeFrameCounter; split <;> simp_all
@[simp] theorem BlockState.writeFrameCounter_delay (d : Byte) (st : BlockState) :
    (st.writeFrameCounter d).resetDelay = st.resetDelay := by
  unfold writeFrameCounter; split <;> rfl

end Sys2Proof.Machine
end

