-- ==== Sys2Proof/Laws/Sequencer.lean ====
section
/-! SUPPORT. What CLOCK can do, said once: the block state after it, its call trace, and that it changes the
collaborators by its trace alone. -/

namespace Sys2Proof.Machine

/-- A list of calls as one update of the state. -/
theorem State.calls_eq (ks : List Call) (s : State) :
    s.calls ks = { s with collab := ks.foldl (fun c k => c.perform k) s.collab, trace := s.trace ++ ks } :=
  State.eq_of_fields (by simp) (by simp) (by simp) (by simp) (by simp)

/-- The delay part of a CLOCK on the block state. -/
def BlockState.delayed (st : BlockState) : BlockState :=
  match st.resetDelay with
  | .idle => st
  | .pending 0 => (st.setCycle 0).setDelay .idle
  | .pending 1 => st.setDelay (.pending 0)
  | .pending 2 => st.setDelay (.pending 1)

/-- The event part of a CLOCK on the block state: only the terminal counts change it. -/
def BlockState.checked (st : BlockState) : BlockState :=
  if st.mode = .fourStep ∧ st.cycle = Config.t4 then st.frameIrq.setCycle 0
  else if st.mode = .fiveStep ∧ st.cycle = Config.t5 then st.setCycle 0
  else st

/-- The block state after a CLOCK. -/
def BlockState.clocked (st : BlockState) : BlockState :=
  (st.delayed.setCycle (st.delayed.cycle + 1)).checked

/-- The calls of the delay part of a CLOCK. -/
def BlockState.delayCalls (st : BlockState) : List Call :=
  if st.resetDelay = .pending 0 ∧ st.mode = .fiveStep then quarterFrameCalls ++ halfFrameCalls else []

/-- The calls of the event part of a CLOCK. -/
def BlockState.eventCalls (st : BlockState) : List Call :=
  if st.cycle = Config.q1 ∨ st.cycle = Config.q3 then quarterFrameCalls
  else if st.cycle = Config.q2 ∨ st.mode = .fourStep ∧ st.cycle = Config.t4 ∨ st.mode = .fiveStep ∧ st.cycle = Config.t5
  then quarterFrameCalls ++ halfFrameCalls
  else []

theorem BlockState.eventCalls_quarter {st : BlockState} (h : st.cycle = Config.q1 ∨ st.cycle = Config.q3) :
    st.eventCalls = quarterFrameCalls := if_pos h

theorem BlockState.eventCalls_half {st : BlockState} (h : st.cycle = Config.q2) :
    st.eventCalls = quarterFrameCalls ++ halfFrameCalls := by
  rw [eventCalls, if_neg (by rw [h]; decide), if_pos (.inl h)]

theorem BlockState.eventCalls_fourStep {st : BlockState} (hm : st.mode = .fourStep) (h : st.cycle = Config.t4) :
    st.eventCalls = quarterFrameCalls ++ halfFrameCalls := by
  rw [eventCalls, if_neg (by rw [h]; decide), if_pos (.inr (.inl ⟨hm, h⟩))]

theorem BlockState.eventCalls_fiveStep {st : BlockState} (hm : st.mode = .fiveStep) (h : st.cycle = Config.t5) :
    st.eventCalls = quarterFrameCalls ++ halfFrameCalls := by
  rw [eventCalls, if_neg (by rw [h]; decide), if_pos (.inr (.inr ⟨hm, h⟩))]

theorem BlockState.eventCalls_none {st : BlockState} (h1 : st.cycle ≠ Config.q1) (h2 : st.cycle ≠ Config.q2)
    (h3 : st.cycle ≠ Config.q3) (h4 : ¬ (st.mode = .fourStep ∧ st.cycle = Config.t4))
    (h5 : ¬ (st.mode = .fiveStep ∧ st.cycle = Config.t5)) : st.eventCalls = [] := by
  rw [eventCalls, if_neg (not_or.2 ⟨h1, h3⟩), if_neg (not_or.2 ⟨h2, not_or.2 ⟨h4, h5⟩⟩)]

theorem BlockState.checked_fourStep {st : BlockState} (hm : st.mode = .fourStep) (h : st.cycle = Config.t4) :
    st.checked = st.frameIrq.setCycle 0 := if_pos ⟨hm, h⟩

theorem BlockState.checked_fiveStep {st : BlockState} (hm : st.mode = .fiveStep) (h : st.cycle = Config.t5) :
    st.checked = st.setCycle 0 := by
  rw [checked, if_neg (by rw [hm]; simp), if_pos ⟨hm, h⟩]

theorem BlockState.checked_other {st : BlockState} (h4 : ¬ (st.mode = .fourStep ∧ st.cycle = Config.t4))
    (h5 : ¬ (st.mode = .fiveStep ∧ st.cycle = Config.t5)) : st.checked = st := by
  rw [checked, if_neg h4, if_neg h5]

@[simp] theorem BlockState.checked_mode (st : BlockState) : st.checked.mode = st.mode := by
  unfold checked; split
  · simp
  · split <;> simp

@[simp] theorem BlockState.checked_inhibit (st : BlockState) : st.checked.interruptInhibit = st.interruptInhibit := by
  unfold checked; split
  · simp
  · split <;> simp

@[simp] theorem BlockState.checked_delay (st : BlockState) : st.checked.resetDelay = st.resetDelay := by
  unfold checked; split
  · simp
  · split <;> simp

@[simp] theorem BlockState.delayed_mode (st : BlockState) : st.delayed.mode = st.mode := by
  unfold delayed; split <;> rfl

@[simp] theorem BlockState.delayed_inhibit (st : BlockState) : st.delayed.interruptInhibit = st.interruptInhibit := by
  unfold delayed; split <;> rfl

@[simp] theorem BlockState.delayed_flag (st : BlockState) :
    st.delayed.frameInterruptFlag = st.frameInterruptFlag := by
  unfold delayed; split <;> rfl

@[simp] theorem BlockState.delayed_latch (st : BlockState) :
    st.delayed.irqChangeRequested = st.irqChangeRequested := by
  unfold delayed; split <;> rfl

theorem delayStep_eq (s : State) :
    delayStep s = (s.calls s.st.delayCalls).onSt BlockState.delayed := by
  unfold delayStep BlockState.delayCalls BlockState.delayed
  rcases hd : s.st.resetDelay with _ | n
  · exact State.eq_of_fields (by simp [hd]) (by simp) (by simp) (by simp) (by simp)
  · match n, hd with
    | 0, hd =>
      cases hm : s.st.mode
      · exact State.eq_of_fields (by simp [hd, hm]) (by simp [hm]) (by simp [hm]) (by simp [hm]) (by simp [hm])
      · exact State.eq_of_fields (by simp [hd, hm, halfFrame, quarterFrame])
          (by simp [hm, halfFrame, quarterFrame, List.foldl_append])
          (by simp [hm, halfFrame, quarterFrame]) (by simp [hm, halfFrame, quarterFrame])
          (by simp [hm, halfFrame, quarterFrame])
    | 1, hd => exact State.eq_of_fields (by simp [hd]) (by simp) (by simp) (by simp) (by simp)
    | 2, hd => exact State.eq_of_fields (by simp [hd]) (by simp) (by simp) (by simp) (by simp)

theorem eventCheck_eq (s : State) :
    eventCheck s = (s.calls s.st.eventCalls).onSt BlockState.checked := by
  unfold eventCheck BlockState.eventCalls BlockState.checked
  by_cases h1 : s.st.cycle = Config.q1
  · rw [if_pos (.inl h1), if_pos (.inl h1)]
    exact State.eq_of_fields (by simp [quarterFrame, h1, Config.q1, Config.t4, Config.t5]) (by simp [quarterFrame])
      (by simp [quarterFrame]) (by simp [quarterFrame]) (by simp [quarterFrame])
  by_cases h3 : s.st.cycle = Config.q3
  · rw [if_pos (.inr h3), if_pos (.inr h3)]
    exact State.eq_of_fields (by simp [quarterFrame, h3, Config.q3, Config.t4, Config.t5]) (by simp [quarterFrame])
      (by simp [quarterFrame]) (by simp [quarterFrame]) (by simp [quarterFrame])
  have h13 : ¬ (s.st.cycle = Config.q1 ∨ s.st.cycle = Config.q3) := by tauto
  rw [if_neg h13, if_neg h13]
  by_cases h2 : s.st.cycle = Config.q2
  · rw [if_pos h2, if_pos (.inl h2)]
    exact State.eq_of_fields (by simp [quarterFrame, halfFrame, h2, Config.q2, Config.t4, Config.t5])
      (by simp [quarterFrame, halfFrame, List.foldl_append]) (by simp [quarterFrame, halfFrame])
      (by simp [quarterFrame, halfFrame]) (by simp [quarterFrame, halfFrame])
  rw [if_neg h2]
  by_cases h4 : s.st.mode = .fourStep ∧ s.st.cycle = Config.t4
  · rw [if_pos h4, if_pos (.inr (.inl h4))]
    exact State.eq_of_fields (by simp [quarterFrame, halfFrame, h4])
      (by simp [quarterFrame, halfFrame, List.foldl_append]) (by simp [quarterFrame, halfFrame])
      (by simp [quarterFrame, halfFrame]) (by simp [quarterFrame, halfFrame])
  rw [if_neg h4]
  by_cases h5 : s.st.mode = .fiveStep ∧ s.st.cycle = Config.t5
  · rw [if_pos h5, if_pos (.inr (.inr h5))]
    exact State.eq_of_fields (by simp [quarterFrame, halfFrame, h5])
      (by simp [quarterFrame, halfFrame, List.foldl_append]) (by simp [quarterFrame, halfFrame])
      (by simp [quarterFrame, halfFrame]) (by simp [quarterFrame, halfFrame])
  rw [if_neg h5, if_neg (by tauto)]
  exact State.eq_of_fields (by rw [State.onSt_st, State.calls_st, if_neg h4, if_neg h5]) (by simp) (by simp) (by simp)
    (by simp)

/-- The calls of a CLOCK. -/
def BlockState.clockCalls (st : BlockState) : List Call :=
  timerClockCalls ++ st.delayCalls ++ (st.delayed.setCycle (st.delayed.cycle + 1)).eventCalls

/-- CLOCK answers a next state: the block state of `clocked`, the calls of `clockCalls`, and nothing else. -/
theorem execClk_eq (s : State) :
    execClk s = .next
      { st := s.st.clocked, collab := s.st.clockCalls.foldl (fun c k => c.perform k) s.collab,
        trace := s.st.clockCalls, result := .nothing, schedule := s.schedule } := by
  unfold execClk sequencerStep incrementCycle
  rw [delayStep_eq, eventCheck_eq]
  congr 1
  exact State.eq_of_fields (by simp [BlockState.clocked]) (by simp [BlockState.clockCalls, List.foldl_append])
    (by simp [BlockState.clockCalls]) (by simp) (by simp)

@[simp] theorem BlockState.clocked_mode (st : BlockState) : st.clocked.mode = st.mode := by simp [clocked]

@[simp] theorem BlockState.clocked_inhibit (st : BlockState) : st.clocked.interruptInhibit = st.interruptInhibit := by
  simp [clocked]

/-- The delay after a CLOCK. -/
@[simp] theorem BlockState.clocked_delay (st : BlockState) : st.clocked.resetDelay = st.delayed.resetDelay := by
  simp [clocked]

/-- The count and the frame flag after a CLOCK, in the two cases there are: a terminal count reached, or not. -/
theorem BlockState.clocked_cases (st : BlockState) :
    (st.mode = .fourStep ∧ st.delayed.cycle + 1 = Config.t4 ∧
      st.clocked = ((st.delayed.setCycle (st.delayed.cycle + 1)).frameIrq.setCycle 0)) ∨
    (st.mode = .fiveStep ∧ st.delayed.cycle + 1 = Config.t5 ∧
      st.clocked = (st.delayed.setCycle (st.delayed.cycle + 1)).setCycle 0) ∨
    (¬ (st.mode = .fourStep ∧ st.delayed.cycle + 1 = Config.t4) ∧
      ¬ (st.mode = .fiveStep ∧ st.delayed.cycle + 1 = Config.t5) ∧
      st.clocked = st.delayed.setCycle (st.delayed.cycle + 1)) := by
  by_cases h4 : st.mode = .fourStep ∧ st.delayed.cycle + 1 = Config.t4
  · exact .inl ⟨h4.1, h4.2, checked_fourStep (by simpa using h4.1) h4.2⟩
  · by_cases h5 : st.mode = .fiveStep ∧ st.delayed.cycle + 1 = Config.t5
    · exact .inr (.inl ⟨h5.1, h5.2, checked_fiveStep (by simpa using h5.1) h5.2⟩)
    · exact .inr (.inr ⟨h4, h5, checked_other (by simpa using h4) (by simpa using h5)⟩)

end Sys2Proof.Machine
end

