-- ==== Sys2Proof/Laws/Exec.lean ====
section
/-! SUPPORT. What an operation can do to the block state, said once for all operations. -/

namespace Sys2Proof.Machine

/-- A pulse control write keeps the block state. -/
@[simp] theorem pulseControl_st (i : PulseId) (d : Byte) (s : State) : (pulseControl i d s).st = s.st := by
  simp [pulseControl]

/-- A pulse sweep write keeps the block state. -/
@[simp] theorem pulseSweep_st (i : PulseId) (d : Byte) (s : State) : (pulseSweep i d s).st = s.st := by
  simp [pulseSweep]

/-- A timer-low write keeps the block state. -/
@[simp] theorem timerLow_st (i : TimerId) (d : Byte) (s : State) : (timerLow i d s).st = s.st := by
  simp [timerLow]

/-- A pulse timer-high write keeps the block state. -/
@[simp] theorem pulseTimerHigh_st (i : PulseId) (d : Byte) (s : State) : (pulseTimerHigh i d s).st = s.st := by
  simp [pulseTimerHigh]

/-- The DMC part of a status write keeps the block state. -/
@[simp] theorem dmcEnable_st (d : Byte) (s : State) : (dmcEnable d s).st = s.st := by
  unfold dmcEnable; split
  · split <;> simp
  · simp

/-- A read of a write-only register keeps the block state. -/
@[simp] theorem readWriteOnly_st (s : State) : (readWriteOnly s).st = s.st := by
  simp [readWriteOnly]

/-- The block state after a frame-counter write of `d`. -/
def BlockState.frameWritten (d : Byte) (st : BlockState) : BlockState :=
  if d.getLsbD 7 then st.writeFrameCounter d else (st.writeFrameCounter d).setDelay (.pending 2)

/-- What an operation does to the block state. Only the four kinds of operation named change it. -/
def BlockState.afterInstr (i : Instr) (st : BlockState) : BlockState :=
  match i with
  | .clk => st.clocked
  | .rdStatus => st.clearFrameFlag
  | .clrq => st.clearLatch
  | .wrFramecnt d => st.frameWritten d
  | _ => st

/-- After an operation that completes, the block state is as `BlockState.afterInstr` says. -/
theorem exec_st {i : Instr} {s t : State} (h : exec i s = .next t) : t.st = s.st.afterInstr i := by
  cases i
  case clk => rw [exec, execClk_eq, Host.Outcome.next.injEq] at h; subst h; rfl
  case rdStatus =>
    simp only [exec, execRdStatus] at h
    split at h
    · rw [Host.Outcome.next.injEq] at h; subst h; simp [BlockState.afterInstr]
    · cases h
  case mix =>
    simp only [exec, execMix] at h
    split at h
    · rw [Host.Outcome.next.injEq] at h; subst h; simp [BlockState.afterInstr]
    · cases h
  case wrFramecnt d =>
    simp only [exec, execWrFramecnt, modeField] at h
    cases hd : d.getLsbD 7 <;> rw [hd] at h <;> simp only [if_true, Bool.false_eq_true, if_false] at h <;>
      rw [Host.Outcome.next.injEq] at h <;> subst h <;>
      rw [BlockState.afterInstr, BlockState.frameWritten, hd] <;> simp [halfFrame, quarterFrame]
  case wrStatus d =>
    simp only [exec, execWrStatus] at h
    rw [Host.Outcome.next.injEq] at h; subst h
    simp [BlockState.afterInstr]
  all_goals
    simp only [exec, execWrP1Ctrl, execWrP1Sweep, execWrP1Tlo, execWrP1Thi, execWrP2Ctrl, execWrP2Sweep, execWrP2Tlo,
      execWrP2Thi, execWrTrictrl, execWrTriunused, execWrTritlo, execWrTrithi, execWrNoictrl, execWrNoiunused,
      execWrNoiper, execWrNoilen, execWrDmcctrl, execWrDmcload, execWrDmcaddr, execWrDmclen, execRdP1Ctrl,
      execRdP1Sweep, execRdP1Tlo, execRdP1Thi, execRdP2Ctrl, execRdP2Sweep, execRdP2Tlo, execRdP2Thi, execRdTrictrl,
      execRdTriunused, execRdTritlo, execRdTrithi, execRdNoictrl, execRdNoiunused, execRdNoiper, execRdNoilen,
      execRdDmcctrl, execRdDmcload, execRdDmcaddr, execRdDmclen, execRdFramecnt, execClrq, execIscr, execPin,
      Host.Outcome.next.injEq] at h
    subst h
    simp [BlockState.afterInstr]

end Sys2Proof.Machine
end

