-- ==== Sys2Proof/Laws/Fetch.lean ====
section
/-! SUPPORT. What fetching the next entry of the schedule can answer, and what a step can do, said once. -/

namespace Sys2Proof.Machine

/-- A word is either run as the instruction it decodes to, or rejected as an illegal word. -/
theorem fetchWord_cases (w : Nat) (s : State) :
    (∃ i, decode w = .ok i ∧ fetchWord w s = .run i s) ∨
    ((∃ e, decode w = .error e) ∧ fetchWord w s = .reject .badOperationWord) := by
  unfold fetchWord
  cases decode w with
  | ok i => exact .inl ⟨i, rfl, rfl⟩
  | error e => exact .inr ⟨⟨e, rfl⟩, rfl⟩

/-- A word at the head of the schedule is fetched as that word, in the state without it. -/
theorem fetch_word {s : State} {w : Nat} {rest : List Event} (h : s.schedule = .word w :: rest) :
    fetch s = fetchWord w { s with schedule := rest } := by
  simp [fetch, h]

/-- A DMC environment step is taken as such. -/
theorem fetch_dmcActivity {s : State} {r : DmcReader} {rest : List Event} (h : s.schedule = .dmcActivity r :: rest) :
    fetch s = .activity r { s with schedule := rest } := by
  simp [fetch, h]

/-- Fetching an operation word never yields anything but its run or the refusal of a word. -/
theorem fetchWord_next {w : Nat} {s' s t : State}
    (h : (match fetchWord w s' with
      | .idle => .next (idleStep s)
      | .activity r u => .next (u.dmcActivity r)
      | .run i u => exec i u
      | .reject r => .refused r : Host.Outcome State Fault Refusal) = .next t) :
    ∃ i, exec i s' = .next t := by
  rcases fetchWord_cases w s' with ⟨i, -, hf⟩ | ⟨-, hf⟩
  · rw [hf] at h; exact ⟨i, h⟩
  · rw [hf] at h; cases h

/-- A step that answers a next state was idle, or took a DMC environment step, or executed an operation, in each case
in the state without the entry it took. -/
theorem step_cases {s t : State} (h : step s = .next t) :
    (s.schedule = [] ∧ t = s) ∨
    (∃ r rest, s.schedule = .dmcActivity r :: rest ∧ t = State.dmcActivity r { s with schedule := rest }) ∨
    (∃ i e rest, s.schedule = e :: rest ∧ exec i { s with schedule := rest } = .next t) := by
  unfold step fetch at h
  rcases hs : s.schedule with _ | ⟨e, rest⟩
  · rw [hs] at h; exact .inl ⟨rfl, (Host.Outcome.next.inj h).symm⟩
  · rw [hs] at h
    rcases e with w | ⟨a, bytes⟩ | ⟨a, n⟩ | r
    · obtain ⟨i, hi⟩ := fetchWord_next h
      exact .inr (.inr ⟨i, _, rest, rfl, hi⟩)
    · rcases bytes with _ | ⟨d, _ | ⟨d', ds⟩⟩
      · cases h
      · obtain ⟨i, hi⟩ := fetchWord_next h
        exact .inr (.inr ⟨i, _, rest, rfl, hi⟩)
      · cases h
    · by_cases hn : legalWidth n = true
      · simp only [fetchBusRead, hn, if_true] at h
        obtain ⟨i, hi⟩ := fetchWord_next h
        exact .inr (.inr ⟨i, _, rest, rfl, hi⟩)
      · simp [fetchBusRead, hn] at h
    · exact .inr (.inl ⟨r, rest, rfl, (Host.Outcome.next.inj h).symm⟩)

end Sys2Proof.Machine
end

