-- ==== Sys2Proof/Laws/Flags.lean ====
section
/-! SUPPORT. The bits of the status byte. -/

namespace Sys2Proof.Machine

/-- Each bit of the status byte is its source, and bit 5 reads 0. -/
theorem statusByte_bits (a b c d e f g : Bool) :
    (statusByte a b c d e f g).getLsbD 7 = a ∧ (statusByte a b c d e f g).getLsbD 6 = b ∧
    (statusByte a b c d e f g).getLsbD 5 = false ∧ (statusByte a b c d e f g).getLsbD 4 = c ∧
    (statusByte a b c d e f g).getLsbD 3 = d ∧ (statusByte a b c d e f g).getLsbD 2 = e ∧
    (statusByte a b c d e f g).getLsbD 1 = f ∧ (statusByte a b c d e f g).getLsbD 0 = g := by
  revert a b c d e f g; decide

/-- The status byte with the frame flag clear is the byte with bit 6 masked off. -/
theorem statusByte_flag_clear (a b c d e f g : Bool) :
    statusByte a false c d e f g = statusByte a b c d e f g &&& 0xBF#8 := by
  revert a b c d e f g; decide

end Sys2Proof.Machine
end

