-- ==== Sys2Proof/Laws/Fp.lean ====
section
/-! SUPPORT. What the IEEE 754 operations do, against exact values: the scaled integers, the one rounding, the exact sum
and quotient that it is applied to, the range test, and the binary64 datum that carries a value. -/

namespace Sys2Proof.Machine

/-- `m · 2^e ≤ b` over the rationals is the comparison of the two scaled integers. -/
theorem scale_le_iff (m b : Nat) (e : Int) :
    (m : Rat) * (2 : Rat) ^ e ≤ b ↔ scaleUp m e ≤ scaleUp b (-e) := by
  unfold scaleUp
  rw [Nat.shiftLeft_eq, Nat.shiftLeft_eq, ← Nat.cast_le (α := Rat)]
  push_cast
  rcases Int.eq_nat_or_neg e with ⟨n, rfl | rfl⟩
  · simp
  · have h : (0 : Rat) < 2 ^ n := by positivity
    simp only [neg_neg, Int.toNat_natCast, zpow_neg, zpow_natCast]
    rw [← div_eq_mul_inv, div_le_iff₀ h]
    simp

/-- The two scaled integers that are divided have the ratio `num / den / 2^q`. -/
theorem scaleUp_ratio (num den : Nat) (q : Int) :
    (scaleUp num (-q) : Rat) / scaleUp den q = (num : Rat) / den / 2 ^ q := by
  unfold scaleUp
  rw [Nat.shiftLeft_eq, Nat.shiftLeft_eq]
  push_cast
  rcases Int.eq_nat_or_neg q with ⟨n, rfl | rfl⟩
  · simp [div_div]
  · simp [div_mul_eq_mul_div]

/-- The numerator and denominator of `m · 2^e`. -/
theorem scaleUp_ratio_one (m : Nat) (e : Int) : ((scaleUp m e : Rat) / scaleUp 1 (-e)) = m * 2 ^ e := by
  have := scaleUp_ratio m 1 (-e)
  rw [neg_neg] at this
  rw [this]; simp

/-- Scaling keeps a positive number positive. -/
theorem scaleUp_pos {n : Nat} (h : 0 < n) (e : Int) : 0 < scaleUp n e := by
  unfold scaleUp; rw [Nat.shiftLeft_eq]; positivity

/-- The floor of the logarithm bounds the quotient. -/
theorem floorLog2_spec {num den : Nat} (hn : 0 < num) (hd : 0 < den) :
    (2 : Rat) ^ floorLog2 num den ≤ num / den ∧ (num / den : Rat) < 2 ^ (floorLog2 num den + 1) := by
  have hdq : (0 : Rat) < den := by exact_mod_cast hd
  have h1 : (2 : Rat) ^ (Nat.log2 num : Int) ≤ num := by exact_mod_cast Nat.log2_self_le hn.ne'
  have h2 : (num : Rat) < 2 ^ ((Nat.log2 num : Int) + 1) := by exact_mod_cast Nat.lt_log2_self
  have h3 : (2 : Rat) ^ (Nat.log2 den : Int) ≤ den := by exact_mod_cast Nat.log2_self_le hd.ne'
  have h4 : (den : Rat) < 2 ^ ((Nat.log2 den : Int) + 1) := by exact_mod_cast Nat.lt_log2_self
  have key := scale_le_iff den num ((Nat.log2 num : Int) - (Nat.log2 den : Int))
  unfold floorLog2
  simp only []
  rw [le_div_iff₀ hdq, div_lt_iff₀ hdq]
  split
  · rename_i h
    rw [← key] at h
    refine ⟨by rwa [mul_comm], h2.trans_le ?_⟩
    calc (2 : Rat) ^ ((Nat.log2 num : Int) + 1)
        = 2 ^ ((Nat.log2 num : Int) - Nat.log2 den + 1) * 2 ^ (Nat.log2 den : Int) := by
          rw [← zpow_add₀ (by norm_num)]; congr 1; ring
      _ ≤ _ := by gcongr
  · rename_i h
    rw [← key, not_le, mul_comm] at h
    refine ⟨?_, by simpa using h⟩
    calc (2 : Rat) ^ ((Nat.log2 num : Int) - Nat.log2 den - 1) * den
        ≤ 2 ^ ((Nat.log2 num : Int) - Nat.log2 den - 1) * 2 ^ ((Nat.log2 den : Int) + 1) := by gcongr
      _ = 2 ^ (Nat.log2 num : Int) := by rw [← zpow_add₀ (by norm_num)]; congr 1; ring
      _ ≤ num := h1

/-- The bounds determine the floor of the logarithm. -/
theorem floorLog2_unique {num den : Nat} (hn : 0 < num) (hd : 0 < den) {k : Int}
    (h1 : (2 : Rat) ^ k ≤ num / den) (h2 : (num / den : Rat) < 2 ^ (k + 1)) : k = floorLog2 num den := by
  obtain ⟨h3, h4⟩ := floorLog2_spec hn hd
  have a := (zpow_lt_zpow_iff_right₀ (by norm_num : (1 : Rat) < 2)).1 (h1.trans_lt h4)
  have b := (zpow_lt_zpow_iff_right₀ (by norm_num : (1 : Rat) < 2)).1 (h3.trans_lt h2)
  omega

/-- The rounded quotient is within a half of the exact one, and even when it is a half off. -/
theorem roundDiv_near (num : Nat) {den : Nat} (hd : 0 < den) :
    |(num / den : Rat) - roundDiv num den| ≤ 1 / 2 ∧
    (|(num / den : Rat) - roundDiv num den| = 1 / 2 → roundDiv num den % 2 = 0) := by
  have hdq : (0 : Rat) < den := by exact_mod_cast hd
  have hx : (num / den : Rat) = (num / den : Nat) + (num % den : Nat) / den := by
    rw [div_eq_iff hdq.ne', add_mul, div_mul_cancel₀ _ hdq.ne']
    exact_mod_cast (Nat.div_add_mod' num den).symm
  have hr : (num % den : Nat) < den := Nat.mod_lt _ hd
  rw [hx]
  unfold roundDiv
  simp only []
  generalize num / den = q
  generalize num % den = r at hr
  have hrq : (r : Rat) < den := by exact_mod_cast hr
  split
  · rename_i h
    have h' : (2 : Rat) * r < den := by exact_mod_cast h
    have e : (q : Rat) + r / den - q = r / den := by ring
    have h2 : (r : Rat) / den < 1 / 2 := by rw [div_lt_div_iff₀ hdq (by norm_num)]; linarith
    have h0 : (0 : Rat) ≤ r / den := by positivity
    rw [e, abs_of_nonneg h0]
    exact ⟨h2.le, fun h => absurd h h2.ne⟩
  · rename_i h
    have h' : (den : Rat) ≤ 2 * r := by exact_mod_cast not_lt.1 h
    have h1 : (r : Rat) / den < 1 := by rw [div_lt_one hdq]; exact hrq
    have h2 : (1 : Rat) / 2 ≤ r / den := by rw [div_le_div_iff₀ (by norm_num) hdq]; linarith
    have e : (q : Rat) + r / den - ((q + 1 : Nat) : Rat) = r / den - 1 := by push_cast; ring
    split
    · rename_i h3
      have h3' : (den : Rat) < 2 * r := by exact_mod_cast h3
      have h4 : (1 : Rat) / 2 < r / den := by rw [div_lt_div_iff₀ (by norm_num) hdq]; linarith
      rw [e, abs_of_neg (by linarith)]
      exact ⟨by linarith, fun h => by linarith⟩
    · rename_i h3
      have h3' : 2 * (r : Rat) ≤ den := by exact_mod_cast not_lt.1 h3
      have h4 : (r : Rat) / den = 1 / 2 := by
        rw [div_eq_div_iff hdq.ne' (by norm_num)]; linarith
      split
      · rename_i h5
        rw [h4]; norm_num; exact h5
      · rename_i h5
        rw [e, h4]; norm_num; omega

/-- The rounded quotient depends on the ratio alone. -/
theorem roundDiv_congr {num den num' den' : Nat} (hd : 0 < den) (hd' : 0 < den')
    (h : (num / den : Rat) = num' / den') : roundDiv num den = roundDiv num' den' := by
  obtain ⟨a1, a2⟩ := roundDiv_near num hd
  obtain ⟨b1, b2⟩ := roundDiv_near num' hd'
  rw [← h] at b1 b2
  generalize (num / den : Rat) = x at *
  generalize roundDiv num den = m at *
  generalize roundDiv num' den' = n at *
  by_contra hne
  have h3 : (1 : Rat) ≤ |(m : Rat) - n| := by
    have : (1 : Int) ≤ |(m : Int) - n| := Int.one_le_abs (by omega)
    exact_mod_cast this
  have h4 : |(m : Rat) - n| ≤ |x - m| + |x - n| := by
    rw [abs_sub_comm x m]; exact abs_sub_le _ _ _
  have e1 : |x - m| = 1 / 2 := by linarith
  have e2 : |x - n| = 1 / 2 := by linarith
  have p1 := a2 e1
  have p2 := b2 e2
  have h5 : |(m : Rat) - n| = 1 := by linarith
  have h6 : |(m : Int) - n| = 1 := by exact_mod_cast h5
  rcases abs_cases ((m : Int) - n) with h | h <;> omega

/-- What rounding a nonzero quotient does: an exponent `q` and the quotient in units of `2^q`, rounded to `m`; `q` is the
least exponent or makes `m` a full coefficient; past the greatest value the result is an infinity. -/
theorem Fp.round_cases (f : MixFormat) (neg : Bool) {num den : Nat} (hn : 0 < num) (hd : 0 < den) :
    ∃ (q : Int) (m : Nat), f.minExp ≤ q ∧ m ≤ 2 ^ f.prec ∧ (q = f.minExp ∨ 2 ^ (f.prec - 1) ≤ m) ∧
      (q = f.minExp ∨ (2 : Rat) ^ (f.prec - 1) ≤ num / den / 2 ^ q) ∧
      (num / den / 2 ^ q : Rat) < 2 ^ f.prec ∧
      (|(num / den / 2 ^ q : Rat) - m| ≤ 1 / 2 ∧ (|(num / den / 2 ^ q : Rat) - m| = 1 / 2 → m % 2 = 0)) ∧
      Fp.round f neg num den = if f.maxExp < q ∨ (q = f.maxExp ∧ 2 ^ f.prec ≤ m) then .inf neg else .fin neg m q := by
  obtain ⟨k1, k2⟩ := floorLog2_spec hn hd
  set k := floorLog2 num den
  obtain ⟨q, hq⟩ : ∃ q, q = max (k - (f.prec - 1 : Nat)) f.minExp := ⟨_, rfl⟩
  obtain ⟨m, hm⟩ : ∃ m, m = roundDiv (scaleUp num (-q)) (scaleUp den q) := ⟨_, rfl⟩
  refine ⟨q, m, hq ▸ le_max_right _ _, ?_, ?_, ?_, ?_, ?_, ?_⟩
  all_goals
    have hp : 1 ≤ f.prec := by cases f <;> decide
    have hX := scaleUp_ratio num den q
    have hs := scaleUp_pos hd q
    have hq0 : (0 : Rat) < 2 ^ q := by positivity
    have near := roundDiv_near (scaleUp num (-q)) hs
    rw [hX, ← hm] at near
    have hlt : (num / den / 2 ^ q : Rat) < 2 ^ f.prec := by
      rw [div_lt_iff₀ hq0]
      refine k2.trans_le ?_
      rw [← zpow_natCast, ← zpow_add₀ (by norm_num)]
      apply zpow_le_zpow_right₀ (by norm_num)
      have : k - (f.prec - 1 : Nat) ≤ q := hq ▸ le_max_left _ _
      omega
    have hge : q = f.minExp ∨ (2 : Rat) ^ (f.prec - 1) ≤ num / den / 2 ^ q := by
      rcases max_choice (k - (f.prec - 1 : Nat)) f.minExp with h | h
      · right
        rw [le_div_iff₀ hq0]
        refine le_trans (le_of_eq ?_) k1
        rw [← zpow_natCast, ← zpow_add₀ (by norm_num)]
        congr 1; omega
      · exact .inl (hq.trans h)
  · have h1 : (m : Rat) ≤ num / den / 2 ^ q + 1 / 2 := by have := abs_le.1 near.1; linarith
    have h2 : (m : Rat) < ((2 ^ f.prec + 1 : Nat) : Rat) := by push_cast; linarith
    have := Nat.cast_lt.1 h2
    omega
  · refine hge.imp_right fun h => ?_
    have h1 : (num / den / 2 ^ q : Rat) ≤ m + 1 / 2 := by have := abs_le.1 near.1; linarith
    have h2 : ((2 ^ (f.prec - 1) : Nat) : Rat) < ((m + 1 : Nat) : Rat) := by push_cast; linarith
    have := Nat.cast_lt.1 h2
    omega
  · exact hge
  · exact hlt
  · exact near
  · unfold Fp.round
    rw [if_neg hn.ne', Nat.shiftLeft_eq, one_mul]
    simp only []
    rw [← hq, ← hm]

/-- Rounding depends on the ratio alone. -/
theorem Fp.round_congr (f : MixFormat) (neg : Bool) {num den num' den' : Nat} (hd : 0 < den) (hd' : 0 < den')
    (h : (num / den : Rat) = num' / den') : Fp.round f neg num den = Fp.round f neg num' den' := by
  have hdq : (0 : Rat) < den := by exact_mod_cast hd
  have hdq' : (0 : Rat) < den' := by exact_mod_cast hd'
  rcases Nat.eq_zero_or_pos num with rfl | hn
  · have : num' = 0 := by
      by_contra hc
      have : (0 : Rat) < num' := by exact_mod_cast Nat.pos_of_ne_zero hc
      have : (0 : Rat) < num' / den' := by positivity
      rw [← h] at this; simp at this
    subst this; rfl
  · have hnq : (0 : Rat) < num := by exact_mod_cast hn
    have hn' : 0 < num' := by
      by_contra hc
      have : num' = 0 := by omega
      subst this
      have : (0 : Rat) < num / den := by positivity
      rw [h] at this; simp at this
    obtain ⟨k1, k2⟩ := floorLog2_spec hn hd
    rw [h] at k1 k2
    have hk := floorLog2_unique hn' hd' k1 k2
    unfold Fp.round
    rw [if_neg hn.ne', if_neg hn'.ne', hk]
    simp only []
    rw [roundDiv_congr (scaleUp_pos hd _) (scaleUp_pos hd' _) (by rw [scaleUp_ratio, scaleUp_ratio, h])]

/-- Rounding a scaled integer depends on its value alone. -/
theorem Fp.roundScaled_congr (f : MixFormat) (neg : Bool) {m m' : Nat} {e e' : Int}
    (h : (m : Rat) * 2 ^ e = m' * 2 ^ e') : Fp.roundScaled f neg m e = Fp.roundScaled f neg m' e' :=
  Fp.round_congr f neg (scaleUp_pos Nat.one_pos _) (scaleUp_pos Nat.one_pos _)
    (by rw [scaleUp_ratio_one, scaleUp_ratio_one, h])

/-- The integer coefficient at a lower exponent has the same value. -/
theorem coefAt_value (s : Bool) (m : Nat) {e e0 : Int} (h : e0 ≤ e) :
    (coefAt s m e e0 : Rat) * 2 ^ e0 = (if s then -1 else 1) * m * 2 ^ e := by
  have : (scaleUp m (e - e0) : Rat) * 2 ^ e0 = m * 2 ^ e := by
    unfold scaleUp
    rw [Nat.shiftLeft_eq]; push_cast
    rw [mul_assoc, ← zpow_natCast, ← zpow_add₀ (by norm_num)]
    congr 2; omega
  unfold coefAt
  cases s
  · simpa using this
  · simpa using this

/-- Addition of finite values: a zero where the exact sum is 0, else the exact sum rounded once. -/
theorem Fp.add_fin (f : MixFormat) {s s' : Bool} {m m' : Nat} {e e' : Int} {a b : Rat}
    (ha : (Fp.fin s m e).toRat? = some a) (hb : (Fp.fin s' m' e').toRat? = some b) :
    (a + b = 0 ∧ Fp.add f (.fin s m e) (.fin s' m' e') = .fin (s && s') 0 f.minExp) ∨
    (a + b ≠ 0 ∧ ∃ (c : Nat) (k : Int), (c : Rat) * 2 ^ k = |a + b| ∧
      Fp.add f (.fin s m e) (.fin s' m' e') = Fp.roundScaled f (decide (a + b < 0)) c k) := by
  simp only [Fp.toRat?, Option.some.injEq] at ha hb
  rw [← coefAt_value s m (min_le_left e e')] at ha
  rw [← coefAt_value s' m' (min_le_right e e')] at hb
  have hab : a + b = ((coefAt s m e (min e e') + coefAt s' m' e' (min e e') : Int) : Rat) * 2 ^ min e e' := by
    rw [← ha, ← hb]; push_cast; ring
  rw [hab]
  simp only [Fp.add]
  generalize coefAt s m e (min e e') + coefAt s' m' e' (min e e') = c
  have h0 : (0 : Rat) < 2 ^ min e e' := by positivity
  by_cases hc : c = 0
  · left; subst hc; simp
  · right
    rw [if_neg hc]
    refine ⟨by simp [hc, h0.ne'], c.natAbs, min e e', ?_, ?_⟩
    · rw [abs_mul, abs_of_pos h0, Nat.cast_natAbs, Int.cast_abs]
    · congr 1
      simp only [decide_eq_decide]
      constructor
      · intro h; exact mul_neg_of_neg_of_pos (by exact_mod_cast h) h0
      · intro h; by_contra hc'
        have : (0 : Rat) ≤ c := by exact_mod_cast not_lt.1 hc'
        have := mul_nonneg this h0.le
        linarith

/-- Division of a finite value by a nonzero one: the exact quotient rounded once. -/
theorem Fp.div_fin (f : MixFormat) (s : Bool) (m : Nat) (e : Int) (s' : Bool) (m' : Nat) (e' : Int) (h : m' ≠ 0) :
    ∃ num den : Nat, 0 < den ∧ (num / den : Rat) = m * 2 ^ e / (m' * 2 ^ e') ∧
    Fp.div f (.fin s m e) (.fin s' m' e') = Fp.round f (s != s') num den := by
  refine ⟨_, _, scaleUp_pos (Nat.pos_of_ne_zero h) _, ?_, by simp only [Fp.div, if_neg h]; rfl⟩
  have := scaleUp_ratio m m' (e' - e)
  rw [neg_sub] at this
  rw [this, zpow_sub₀ (by norm_num)]
  field_simp

/-- A value is in the range exactly when it is finite and its exact value is between 0 and the bound. -/
theorem Fp.inRange_iff (b : Nat) (x : Fp) :
    x.inRange b = true ↔ ∃ q, x.toRat? = some q ∧ 0 ≤ q ∧ q ≤ b := by
  rcases x with _ | s | ⟨s, m, e⟩
  · simp [Fp.inRange, Fp.toRat?]
  · simp [Fp.inRange, Fp.toRat?]
  · have he : (0 : Rat) < (2 : Rat) ^ e := by positivity
    rw [← Bool.not_eq_false]
    cases s
    · simp only [Fp.inRange, Fp.toRat?, Option.some.injEq, exists_eq_left', Bool.not_eq_false, Bool.or_eq_true,
        beq_iff_eq, Bool.and_eq_true, Bool.not_false, true_and, decide_eq_true_eq, Bool.false_eq_true, if_false,
        one_mul]
      rw [← scale_le_iff]
      constructor
      · rintro (rfl | h)
        · simp
        · exact ⟨by positivity, h⟩
      · exact fun h => .inr h.2
    · simp only [Fp.inRange, Fp.toRat?, Option.some.injEq, exists_eq_left', Bool.not_eq_false, Bool.or_eq_true,
        beq_iff_eq, Bool.and_eq_true, Bool.not_true, Bool.false_eq_true, false_and, or_false, if_true]
      constructor
      · rintro rfl; simp
      · rintro ⟨h, -⟩
        by_contra hm
        have hm' : (0 : Rat) < m := by exact_mod_cast Nat.pos_of_ne_zero hm
        have := mul_pos hm' he
        nlinarith

/-- Reading a datum gives back the parts it was put together from. -/
theorem Fp.unpack_packBits (neg : Bool) {ex frac : Nat} (h1 : ex < 2048) (h2 : frac < 2 ^ 52) :
    Fp.unpack (packBits neg ex frac) =
      if ex = 2047 then (if frac = 0 then .inf neg else .nan)
      else if ex = 0 then .fin neg frac (-1074) else .fin neg (2 ^ 52 + frac) ((ex : Int) - 1075) := by
  have a1 : (packBits neg ex frac).getLsbD 63 = neg := by
    unfold packBits
    rw [BitVec.getLsbD_append, if_neg (by omega), BitVec.getLsbD_append, if_neg (by omega)]
    cases neg <;> rfl
  have a2 : ((packBits neg ex frac).extractLsb' 52 11).toNat = ex := by
    have : (packBits neg ex frac).extractLsb' 52 11 = BitVec.ofNat 11 ex := by
      ext i hi
      simp only [packBits, BitVec.getElem_extractLsb', BitVec.getLsbD_append]
      rw [if_neg (by omega)]
      simp [hi]
    rw [this]; simpa using h1
  have a3 : ((packBits neg ex frac).extractLsb' 0 52).toNat = frac := by
    have : (packBits neg ex frac).extractLsb' 0 52 = BitVec.ofNat 52 frac := by
      ext i hi
      simp only [packBits, BitVec.getElem_extractLsb', Nat.zero_add]
      rw [BitVec.getLsbD_append, if_pos hi, BitVec.getLsbD_eq_getElem]
    rw [this, BitVec.toNat_ofNat, Nat.mod_eq_of_lt h2]
  unfold Fp.unpack
  rw [a1, a2, a3]

/-- The datum that carries a finite value depends on its sign and value alone. -/
theorem Fp.pack_congr (neg : Bool) {m m' : Nat} {e e' : Int} (h : (m : Rat) * 2 ^ e = m' * 2 ^ e') :
    Fp.pack (.fin neg m e) = Fp.pack (.fin neg m' e') := by
  have hz : m = 0 ↔ m' = 0 := by
    have a : (2 : Rat) ^ e ≠ 0 := by positivity
    have b : (2 : Rat) ^ e' ≠ 0 := by positivity
    constructor
    · rintro rfl; simpa [b] using h.symm
    · rintro rfl; simpa [a] using h
  simp only [Fp.pack]
  by_cases hm : m = 0
  · simp [hm, hz.1 hm]
  · rw [if_neg hm, if_neg (hz.not.1 hm), Fp.roundScaled_congr .binary64 neg h]

/-- The free sample conforms, or is the nearest value of the format to the value of R161. -/
theorem Outputs.unstatedSample_cases (f : MixFormat) (o : Outputs) :
    o.conforming f (o.unstatedSample f) = true ∨
      o.unstatedSample f = (Fp.round f false o.exact.num.toNat o.exact.den).pack := by
  unfold unstatedSample
  split
  · exact .inl ‹_›
  · exact .inr rfl

end Sys2Proof.Machine
end

