-- ==== Sys2Proof/Laws/Ops.lean ====
section
/-! SUPPORT. What a collaborator call can do, said once: the channels it leaves alone, the length counters' range, the
answers to `get_output`; and what the DMC's environment step can do. -/

namespace Sys2Proof.Machine

/-- A call on another channel leaves pulse 1 alone. -/
theorem Collab.perform_p1 {k : Call} (h : k.chan ≠ .p1) (c : Collab) : (c.perform k).p1 = c.p1 := by
  cases k <;> first
    | rfl
    | (rename_i i; cases i <;> first | rfl | exact absurd rfl h)
    | (rename_i i _; cases i <;> first | rfl | exact absurd rfl h)
    | (rename_i i _ _; cases i <;> first | rfl | exact absurd rfl h)

/-- A call on another channel leaves pulse 2 alone. -/
theorem Collab.perform_p2 {k : Call} (h : k.chan ≠ .p2) (c : Collab) : (c.perform k).p2 = c.p2 := by
  cases k <;> first
    | rfl
    | (rename_i i; cases i <;> first | rfl | exact absurd rfl h)
    | (rename_i i _; cases i <;> first | rfl | exact absurd rfl h)
    | (rename_i i _ _; cases i <;> first | rfl | exact absurd rfl h)

/-- A call on another channel leaves the triangle alone. -/
theorem Collab.perform_t {k : Call} (h : k.chan ≠ .t) (c : Collab) : (c.perform k).t = c.t := by
  cases k <;> first
    | rfl
    | exact absurd rfl h
    | (rename_i i; cases i <;> first | rfl | exact absurd rfl h)
    | (rename_i i _; cases i <;> first | rfl | exact absurd rfl h)
    | (rename_i i _ _; cases i <;> rfl)

/-- A call on another channel leaves the noise channel alone. -/
theorem Collab.perform_n {k : Call} (h : k.chan ≠ .n) (c : Collab) : (c.perform k).n = c.n := by
  cases k <;> first
    | rfl
    | exact absurd rfl h
    | (rename_i i; cases i <;> first | rfl | exact absurd rfl h)
    | (rename_i i _; cases i <;> first | rfl | exact absurd rfl h)
    | (rename_i i _ _; cases i <;> first | rfl | exact absurd rfl h)

/-- A call on another channel leaves the DMC alone. -/
theorem Collab.perform_d {k : Call} (h : k.chan ≠ .d) (c : Collab) : (c.perform k).d = c.d := by
  cases k <;> first
    | rfl
    | exact absurd rfl h
    | (rename_i i; cases i <;> first | rfl | exact absurd rfl h)
    | (rename_i i _; cases i <;> first | rfl | exact absurd rfl h)
    | (rename_i i _ _; cases i <;> rfl)

/-- What the calls on a length counter do to its record; every other call leaves it. -/
def Call.onCounter (k : Call) (i : LcId) (l : LengthCounter) : LengthCounter :=
  match k with
  | .setHalt j b => if j = i then l.setHalt b else l
  | .setEnabled j b => if j = i then l.setEnabled b else l
  | .reloadCounter j x => if j = i then l.reload x else l
  | .decrement j => if j = i then l.decrement else l
  | _ => l

/-- Every call changes a length counter as `Call.onCounter` says. -/
theorem Collab.perform_lc (k : Call) (i : LcId) (c : Collab) : (c.perform k).lc i = k.onCounter i (c.lc i) := by
  cases i <;> cases k <;> first
    | rfl
    | (rename_i j; cases j <;> rfl)
    | (rename_i j _; cases j <;> rfl)
    | (rename_i j _ _; cases j <;> rfl)

/-- No call takes a length counter out of its contract range. -/
theorem Call.onCounter_le (k : Call) (i : LcId) {l : LengthCounter} (h : l.counter ≤ 255) :
    (k.onCounter i l).counter ≤ 255 := by
  unfold Call.onCounter
  split <;> try split
  all_goals try exact h
  · simp only [LengthCounter.setEnabled]; split <;> omega
  · simp only [LengthCounter.reload]
    split
    · exact Nat.le_of_lt_succ (Config.lengthTable _).isLt
    · exact h
  · simp only [LengthCounter.decrement]; split <;> omega

/-- The range of the counters, by slot. -/
theorem Collab.countersSmall_iff (c : Collab) : c.CountersSmall ↔ ∀ i, (c.lc i).counter ≤ 255 := by
  constructor
  · rintro ⟨h1, h2, h3, h4⟩ i; cases i <;> assumption
  · intro h; exact ⟨h .p1, h .p2, h .t, h .n⟩

/-- A call keeps the counters in their range. -/
theorem Collab.CountersSmall.perform {c : Collab} (h : c.CountersSmall) (k : Call) : (c.perform k).CountersSmall := by
  rw [Collab.countersSmall_iff] at h ⊢
  intro i
  rw [Collab.perform_lc]
  exact Call.onCounter_le k i (h i)

/-- A list of calls keeps the counters in their range. -/
theorem Collab.CountersSmall.foldl {c : Collab} (h : c.CountersSmall) (ks : List Call) :
    (ks.foldl (fun c k => c.perform k) c).CountersSmall := by
  induction ks generalizing c with
  | nil => exact h
  | cons k ks ih => exact ih (h.perform k)

/-- The Boolean the status read tests says that the counters are in their range. -/
theorem Collab.countersInContract_iff (c : Collab) : c.countersInContract = true ↔ c.CountersSmall := by
  simp only [Collab.countersInContract, LengthCounter.inContract, Bool.and_eq_true, decide_eq_true_eq,
    Collab.CountersSmall]
  tauto

/-- Every call but CLRQ's takes its effect and then renews its channel's answer. -/
theorem Collab.perform_eq {k : Call} (h : k ≠ .clearChangeRequest) (c : Collab) :
    c.perform k = (c.applyCall k).renewOutput k.chan := by
  cases k <;> first | rfl | exact absurd rfl h

/-- Clearing the DMC's change request leaves its answer to `get_output`. -/
@[simp] theorem Dmc.getOutput_clearChangeRequest (d : Dmc) : d.clearChangeRequest.getOutput = d.getOutput := rfl

/-- CLRQ's call changes no answer to `get_output`. -/
@[simp] theorem Collab.perform_clearChangeRequest_outputs (c : Collab) :
    (c.perform .clearChangeRequest).outputs = c.outputs := rfl

/-- A call changes only its own channel, and the one that renews no answer changes none, so after it the answers are
current again if they were. -/
theorem Collab.OutputsCurrent.perform {c : Collab} (h : c.OutputsCurrent) (k : Call) :
    (c.perform k).OutputsCurrent := by
  obtain ⟨h1, h2, h3, h4, h5⟩ := h
  cases k <;> first
    | exact ⟨h1, h2, rfl, h4, h5⟩
    | exact ⟨h1, h2, h3, rfl, h5⟩
    | exact ⟨h1, h2, h3, h4, rfl⟩
    | exact ⟨h1, h2, h3, h4, h5⟩
    | (rename_i i; cases i <;> first
        | exact ⟨rfl, h2, h3, h4, h5⟩ | exact ⟨h1, rfl, h3, h4, h5⟩ | exact ⟨h1, h2, rfl, h4, h5⟩
        | exact ⟨h1, h2, h3, rfl, h5⟩ | exact ⟨h1, h2, h3, h4, rfl⟩)
    | (rename_i i _; cases i <;> first
        | exact ⟨rfl, h2, h3, h4, h5⟩ | exact ⟨h1, rfl, h3, h4, h5⟩ | exact ⟨h1, h2, rfl, h4, h5⟩
        | exact ⟨h1, h2, h3, rfl, h5⟩)
    | (rename_i i _ _; cases i <;> first
        | exact ⟨rfl, h2, h3, h4, h5⟩ | exact ⟨h1, rfl, h3, h4, h5⟩ | exact ⟨h1, h2, h3, rfl, h5⟩)

/-- A list of calls keeps the answers current. -/
theorem Collab.OutputsCurrent.foldl {c : Collab} (h : c.OutputsCurrent) (ks : List Call) :
    (ks.foldl (fun c k => c.perform k) c).OutputsCurrent := by
  induction ks generalizing c with
  | nil => exact h
  | cons k ks ih => exact ih (h.perform k)

/-- The DMC's environment step changes nothing of the other channels. -/
theorem State.dmcActivity_lc (r : DmcReader) (i : LcId) (s : State) :
    (s.dmcActivity r).collab.lc i = s.collab.lc i := by
  cases i <;> rfl

end Sys2Proof.Machine
end

