-- ==== Sys2Proof/Laws/PerInstr.lean ====
section
/-! SUPPORT. Statements made per instruction. `EncodesLegalWord`: the operation word of the instruction is legal by the
list of illegal words of spec/30_encoding.md R95, which the encoder does not use. -/

namespace Sys2Proof.Laws.EncodesLegalWord

/-- The instruction's operation word is a legal word (R75, R95). -/
def Statement (i : Instr) : Prop := legalOpw (encode i) = true

theorem wrP1Ctrl (d : Byte) : Statement (.wrP1Ctrl d) := (legalOpw_make _ _ d).trans rfl
theorem wrP1Sweep (d : Byte) : Statement (.wrP1Sweep d) := (legalOpw_make _ _ d).trans rfl
theorem wrP1Tlo (d : Byte) : Statement (.wrP1Tlo d) := (legalOpw_make _ _ d).trans rfl
theorem wrP1Thi (d : Byte) : Statement (.wrP1Thi d) := (legalOpw_make _ _ d).trans rfl
theorem wrP2Ctrl (d : Byte) : Statement (.wrP2Ctrl d) := (legalOpw_make _ _ d).trans rfl
theorem wrP2Sweep (d : Byte) : Statement (.wrP2Sweep d) := (legalOpw_make _ _ d).trans rfl
theorem wrP2Tlo (d : Byte) : Statement (.wrP2Tlo d) := (legalOpw_make _ _ d).trans rfl
theorem wrP2Thi (d : Byte) : Statement (.wrP2Thi d) := (legalOpw_make _ _ d).trans rfl
theorem wrTrictrl (d : Byte) : Statement (.wrTrictrl d) := (legalOpw_make _ _ d).trans rfl
theorem wrTriunused (d : Byte) : Statement (.wrTriunused d) := (legalOpw_make _ _ d).trans rfl
theorem wrTritlo (d : Byte) : Statement (.wrTritlo d) := (legalOpw_make _ _ d).trans rfl
theorem wrTrithi (d : Byte) : Statement (.wrTrithi d) := (legalOpw_make _ _ d).trans rfl
theorem wrNoictrl (d : Byte) : Statement (.wrNoictrl d) := (legalOpw_make _ _ d).trans rfl
theorem wrNoiunused (d : Byte) : Statement (.wrNoiunused d) := (legalOpw_make _ _ d).trans rfl
theorem wrNoiper (d : Byte) : Statement (.wrNoiper d) := (legalOpw_make _ _ d).trans rfl
theorem wrNoilen (d : Byte) : Statement (.wrNoilen d) := (legalOpw_make _ _ d).trans rfl
theorem wrDmcctrl (d : Byte) : Statement (.wrDmcctrl d) := (legalOpw_make _ _ d).trans rfl
theorem wrDmcload (d : Byte) : Statement (.wrDmcload d) := (legalOpw_make _ _ d).trans rfl
theorem wrDmcaddr (d : Byte) : Statement (.wrDmcaddr d) := (legalOpw_make _ _ d).trans rfl
theorem wrDmclen (d : Byte) : Statement (.wrDmclen d) := (legalOpw_make _ _ d).trans rfl
theorem wrStatus (d : Byte) : Statement (.wrStatus d) := (legalOpw_make _ _ d).trans rfl
theorem wrFramecnt (d : Byte) : Statement (.wrFramecnt d) := (legalOpw_make _ _ d).trans rfl
theorem rdP1Ctrl : Statement .rdP1Ctrl := rfl
theorem rdP1Sweep : Statement .rdP1Sweep := rfl
theorem rdP1Tlo : Statement .rdP1Tlo := rfl
theorem rdP1Thi : Statement .rdP1Thi := rfl
theorem rdP2Ctrl : Statement .rdP2Ctrl := rfl
theorem rdP2Sweep : Statement .rdP2Sweep := rfl
theorem rdP2Tlo : Statement .rdP2Tlo := rfl
theorem rdP2Thi : Statement .rdP2Thi := rfl
theorem rdTrictrl : Statement .rdTrictrl := rfl
theorem rdTriunused : Statement .rdTriunused := rfl
theorem rdTritlo : Statement .rdTritlo := rfl
theorem rdTrithi : Statement .rdTrithi := rfl
theorem rdNoictrl : Statement .rdNoictrl := rfl
theorem rdNoiunused : Statement .rdNoiunused := rfl
theorem rdNoiper : Statement .rdNoiper := rfl
theorem rdNoilen : Statement .rdNoilen := rfl
theorem rdDmcctrl : Statement .rdDmcctrl := rfl
theorem rdDmcload : Statement .rdDmcload := rfl
theorem rdDmcaddr : Statement .rdDmcaddr := rfl
theorem rdDmclen : Statement .rdDmclen := rfl
theorem rdStatus : Statement .rdStatus := rfl
theorem rdFramecnt : Statement .rdFramecnt := rfl
theorem clk : Statement .clk := rfl
theorem clrq : Statement .clrq := rfl
theorem iscr : Statement .iscr := rfl
theorem pin : Statement .pin := rfl
theorem mix : Statement .mix := rfl

end Sys2Proof.Laws.EncodesLegalWord
end

