-- ==== Sys2Proof/Tests/Slice0.lean ====
section
/-! SUPPORT. Tests of the model against the spec's own words and vectors (spec/95_test_vectors.md, named V-…; the
encodings of spec/opcode_table.json), and for every statement with hypotheses a state and operands that meet them
(the theorems `witness_…`). -/

namespace Sys2Proof.Tests

open Sys2Proof.Machine Sys2Proof.Claims

/-! Reading an outcome -/

/-- Reads something off the next state, if there is one. -/
def look {α : Type} (f : State → α) : Host.Outcome State Fault Refusal → Option α
  | .next t => some (f t)
  | _ => none

/-- The refusal, if the outcome is one. -/
def refusal : Host.Outcome State Fault Refusal → Option Refusal
  | .refused r => some r
  | _ => none

/-- The reset state with another block state. -/
def withSt (st : BlockState) : State := { State.reset with st := st }

/-- The reset state with other collaborators. -/
def withCollab (c : Collab) : State := { State.reset with collab := c }

/-- The block state at a count, in a mode and a delay; not inhibited, flag and latch clear. -/
def at_ (cycle : BitVec 16) (m : Mode) (r : ResetDelay) : BlockState :=
  { BlockState.reset with cycle := cycle, mode := m, resetDelay := r }

/-- The block state of the reset with the frame flag set. -/
def flagSet : BlockState := { BlockState.reset with frameInterruptFlag := true }

/-- The model's `COLLAB_INIT` with pulse 1's period. -/
def p1Period (v : BitVec 16) : Collab := { Collab.init with p1 := { Pulse.init with period := v } }

/-- The model's `COLLAB_INIT` with a reader of the DMC. -/
def reader (n : Nat) (irq cr : Bool) : Collab :=
  { Collab.init with d := { Dmc.init with
      reader := { remainingBytes := n, irqFlag := irq, changeRequested := cr, internal := 0 } } }

/-- A length counter at a count. -/
def lcAt (n : Nat) (halt : Bool) : LengthCounter := { counter := n, halt := halt, enabled := true }

/-- The model's `COLLAB_INIT` with the four length counters. -/
def counters (a b c d : Nat) : Collab :=
  { Collab.init with
    p1 := { Pulse.init with lc := lcAt a false }, p2 := { Pulse.init with lc := lcAt b false }
    t := { Triangle.init with lc := lcAt c false }, n := { Noise.init with lc := lcAt d false } }

/-- The reset state with the five answers to `get_output`. -/
def hears (p1 p2 t n d : Amp) : State :=
  withCollab { Collab.init with outputs := { p1 := p1, p2 := p2, t := t, n := n, d := d } }

/-! Well-formedness: an ill-formed term for each check (R61, R77, R95) -/

theorem test_ill_formed_words :
    legalWord 0x0401400 = false ∧        -- RD $4014 (V-ENC-5)
    legalWord 0x1401601 = false ∧        -- WR $4016 (V-ENC-6)
    legalWord 0x0401501 = false ∧        -- a read with D ≠ 0 (V-ENC-7)
    legalWord 0x2000001 = false ∧        -- CLOCK with D ≠ 0 (V-ENC-8)
    legalWord 0x2000100 = false ∧        -- CLOCK with A ≠ 0
    legalWord 0x3000400 = false ∧        -- host control A = 4 (V-ENC-9)
    legalWord 0x3000101 = false ∧        -- host control D ≠ 0
    legalWord 0x1401800 = false ∧        -- WR $4018 (V-ENC-10)
    legalWord 0x13FFF00 = false ∧        -- WR $3FFF (V-ENC-11)
    legalWord 0x5401500 = false ∧        -- wider than 26 bits
    legalWidth 0 = false ∧ legalWidth 2 = false := by decide

theorem test_well_formed_words :
    legalWord 0x14013FF = true ∧ legalWord 0x1400000 = true ∧ legalWord 0x0401700 = true ∧ legalWord 0x2000000 = true ∧
    legalWord 0x3000300 = true ∧ legalWidth 1 = true := by decide

theorem test_ill_formed_words_are_refused :
    refusal (step (State.reset.withFetchWord 32 0x0401400)) = some .badOperationWord ∧
    refusal (step (State.reset.withFetchWord 32 0x1401601)) = some .badOperationWord ∧
    refusal (step (State.reset.withFetchWord 32 0x0401501)) = some .badOperationWord ∧
    refusal (step (State.reset.withFetchWord 32 0x2000001)) = some .badOperationWord ∧
    refusal (step (State.reset.withFetchWord 32 0x2000100)) = some .badOperationWord ∧
    refusal (step (State.reset.withFetchWord 32 0x3000400)) = some .badOperationWord ∧
    refusal (step (State.reset.withFetchWord 32 0x3000101)) = some .badOperationWord ∧
    refusal (step (State.reset.withFetchWord 32 0x5401500)) = some .badOperationWord ∧
    refusal (step { State.reset with schedule := [.busRead 0x4015 2] }) = some .widthNotOne ∧
    refusal (step { State.reset with schedule := [.busWrite 0x4015 []] }) = some .widthNotOne := by decide

/-! Decoding: a word for every constructor, from the table's `K`, `A`, `D` -/

theorem test_decode_pulse_writes :
    decodeTableWord 32 0x14000BF = some (.wrP1Ctrl 0xBF) ∧ decodeTableWord 32 0x1400187 = some (.wrP1Sweep 0x87) ∧
    decodeTableWord 32 0x14002FE = some (.wrP1Tlo 0xFE) ∧ decodeTableWord 32 0x1400308 = some (.wrP1Thi 0x08) ∧
    decodeTableWord 32 0x14004DF = some (.wrP2Ctrl 0xDF) ∧ decodeTableWord 32 0x1400501 = some (.wrP2Sweep 0x01) ∧
    decodeTableWord 32 0x14006FD = some (.wrP2Tlo 0xFD) ∧ decodeTableWord 32 0x140070A = some (.wrP2Thi 0x0A) := by decide

theorem test_decode_triangle_and_noise_writes :
    decodeTableWord 32 0x1400881 = some (.wrTrictrl 0x81) ∧ decodeTableWord 32 0x14009FF = some (.wrTriunused 0xFF) ∧
    decodeTableWord 32 0x1400A42 = some (.wrTritlo 0x42) ∧ decodeTableWord 32 0x1400BF9 = some (.wrTrithi 0xF9) ∧
    decodeTableWord 32 0x1400C3A = some (.wrNoictrl 0x3A) ∧ decodeTableWord 32 0x1400D12 = some (.wrNoiunused 0x12) ∧
    decodeTableWord 32 0x1400E8A = some (.wrNoiper 0x8A) ∧ decodeTableWord 32 0x1400F18 = some (.wrNoilen 0x18) := by decide

theorem test_decode_dmc_and_control_writes :
    decodeTableWord 32 0x140104F = some (.wrDmcctrl 0x4F) ∧ decodeTableWord 32 0x14011FF = some (.wrDmcload 0xFF) ∧
    decodeTableWord 32 0x14012C0 = some (.wrDmcaddr 0xC0) ∧ decodeTableWord 32 0x1401300 = some (.wrDmclen 0) ∧
    decodeTableWord 32 0x140151F = some (.wrStatus 0x1F) ∧ decodeTableWord 32 0x14017C0 = some (.wrFramecnt 0xC0) := by decide

theorem test_decode_reads :
    [0x0400000, 0x0400100, 0x0400200, 0x0400300, 0x0400400, 0x0400500, 0x0400600, 0x0400700, 0x0400800, 0x0400900,
     0x0400A00, 0x0400B00, 0x0400C00, 0x0400D00, 0x0400E00, 0x0400F00, 0x0401000, 0x0401100, 0x0401200, 0x0401300,
     0x0401500, 0x0401700].map (decodeTableWord 32) =
    [some .rdP1Ctrl, some .rdP1Sweep, some .rdP1Tlo, some .rdP1Thi, some .rdP2Ctrl, some .rdP2Sweep, some .rdP2Tlo,
     some .rdP2Thi, some .rdTrictrl, some .rdTriunused, some .rdTritlo, some .rdTrithi, some .rdNoictrl,
     some .rdNoiunused, some .rdNoiper, some .rdNoilen, some .rdDmcctrl, some .rdDmcload, some .rdDmcaddr,
     some .rdDmclen, some .rdStatus, some .rdFramecnt] := by decide

theorem test_decode_clock_and_host :
    decodeTableWord 32 0x2000000 = some .clk ∧ decodeTableWord 32 0x3000000 = some .clrq ∧
    decodeTableWord 32 0x3000100 = some .iscr ∧ decodeTableWord 32 0x3000200 = some .pin ∧
    decodeTableWord 32 0x3000300 = some .mix := by decide

/-- Words written bit by bit from the layout of R75 and the addresses of R76. -/
theorem test_decode_bits :
    decodeOpw (0b01#2 ++ 0b0100000000010111#16 ++ 0b11000000#8) = .ok (.wrFramecnt 0xC0) ∧
    decodeOpw (0b00#2 ++ 0b0100000000010101#16 ++ 0b00000000#8) = .ok .rdStatus ∧
    decodeOpw (0b10#2 ++ 0b0000000000000000#16 ++ 0b00000000#8) = .ok .clk ∧
    decodeOpw (0b11#2 ++ 0b0000000000000010#16 ++ 0b00000000#8) = .ok .pin := by
  refine ⟨?_, ?_, ?_, ?_⟩ <;> rfl

/-! Assembly text (R97, R98; V-ENC and the programs of the vectors) -/

theorem test_assemble_write :
    assembleLine ['W', 'R', ' ', ' ', '$', '4', '0', '1', '7', ',', ' ', '$', 'C', '0'] = some [0x14017C0#26] := by decide

theorem test_assemble_name_and_comment :
    assembleLine ['R', 'D', ' ', 'S', 'T', 'A', 'T', 'U', 'S', ' ', ';', 'x'] = some [0x0401500#26] ∧
    assembleLine ['C', 'L', 'K', ' ', '3'] = some [0x2000000#26, 0x2000000#26, 0x2000000#26] ∧
    assembleLine ['M', 'I', 'X'] = some [0x3000300#26] := by decide

/-! Register writes (V-WR) -/

theorem test_wr1 : look State.trace (exec (.wrP1Ctrl 0xBF) .reset) =
    some [.setDuty .p1 2, .setVolume .p1 15 true, .setHalt .p1 true, .setEnvLoopFlag .p1 true, .setStartFlag .p1 true] := by
  decide

theorem test_wr3 : look State.trace (exec (.wrP2Ctrl 0xDF) .reset) =
    some [.setDuty .p2 3, .setVolume .p2 15 true, .setHalt .p2 false, .setEnvLoopFlag .p2 false,
          .setStartFlag .p2 true] := by decide

theorem test_wr4 : look State.trace (exec (.wrP1Sweep 0x87) .reset) = some [.setSweeperData .p1 0x87] := by decide

theorem test_wr5 : look State.trace (exec (.wrP1Tlo 0xFE) (withCollab (p1Period 0x0523))) = some [.setPeriod .p1 0x05FE] := by
  decide

theorem test_wr6 : look State.trace (exec (.wrP1Thi 0x09) (withCollab (p1Period 0x00FE))) =
    some [.setPeriod .p1 0x01FE, .reloadCounter .p1 1, .setStartFlag .p1 true, .reset .p1] := by decide

theorem test_wr9 : look (fun t => t.collab.p1.period) (exec (.wrP1Thi 0x05) (withCollab (p1Period 0xF8AB))) =
    some 0xFDAB#16 := by decide

theorem test_wr10 : look State.trace (exec (.wrTrictrl 0x81) .reset) =
    some [.setLinControlFlag true, .setLinReloadValue 1, .setHalt .t true] := by decide

theorem test_wr12 : look State.trace
    (exec (.wrTrithi 0x0F) (withCollab { Collab.init with t := { Triangle.init with period := 0x0042 } })) =
    some [.setPeriod .t 0x0742, .reloadCounter .t 1, .setLinReloadFlag] := by decide

theorem test_wr13 : look State.trace (exec (.wrNoictrl 0xC5) .reset) =
    some [.setVolume .n 5 false, .setHalt .n false, .setEnvLoopFlag .n false, .setStartFlag .n true] := by decide

theorem test_wr15 : look State.trace (exec (.wrNoiper 0x8A) .reset) =
    some [.setNoiseMode true, .setNoisePeriodIndex 10] := by decide

theorem test_wr17 : look State.trace (exec (.wrNoilen 0x18) .reset) = some [.reloadCounter .n 3] := by decide

theorem test_wr19 : look State.trace (exec (.wrDmcctrl 0x4F) .reset) =
    some [.setRateIndex 15, .setDmcLoopFlag true, .setIrqEnabledFlag false] := by decide

theorem test_wr21 : look State.trace (exec (.wrDmcload 0xFF) .reset) = some [.setDirectOutputLevel 127] := by decide

theorem test_wr23_wr24 : look State.trace (exec (.wrDmcaddr 0xC0) .reset) = some [.setSamplesAddress 0xC0] ∧
    look State.trace (exec (.wrDmclen 0x00) .reset) = some [.setSamplesLength 0x00] := by decide

theorem test_wr25 : look (fun t => (t.trace, t.st, t.collab)) (exec (.wrTriunused 0xFF) .reset) =
      some ([], State.reset.st, State.reset.collab) ∧
    look (fun t => (t.trace, t.st, t.collab)) (exec (.wrNoiunused 0x12) .reset) =
      some ([], State.reset.st, State.reset.collab) := by decide

theorem test_wr26 : look State.trace (exec (.wrStatus 0x1F) .reset) =
    some [.setEnabled .p1 true, .setEnabled .p2 true, .setEnabled .t true, .setEnabled .n true, .restartSample,
          .clearIrqFlag] := by decide

theorem test_wr27 : look State.trace (exec (.wrStatus 0x10) (withCollab (reader 5 false false))) =
    some [.setEnabled .p1 false, .setEnabled .p2 false, .setEnabled .t false, .setEnabled .n false, .clearIrqFlag] := by
  decide

theorem test_wr28 : look (fun t => (t.collab.d.reader.remainingBytes, t.collab.d.reader.irqFlag))
    (exec (.wrStatus 0x00) (withCollab (reader 5 true false))) = some (0, false) := by decide

theorem test_wr29 : look (fun t => (t.collab.p1.lc.counter, t.collab.p1.lc.enabled))
    (exec (.wrStatus 0xE0) (withCollab (counters 9 0 0 0))) = some (0, false) := by decide

theorem test_wr30 : look (fun t => (t.st, t.trace)) (exec (.wrFramecnt 0x40) (withSt flagSet)) =
    some ({ cycle := 0, mode := .fourStep, interruptInhibit := true, frameInterruptFlag := false,
            irqChangeRequested := true, resetDelay := .pending 2 }, []) := by decide

theorem test_wr32 : look (fun t => (t.st, t.trace)) (exec (.wrFramecnt 0x80) (withSt (at_ 100 .fourStep .idle))) =
    some (at_ 100 .fiveStep .idle,
      [.envClock .p1, .envClock .p2, .envClock .n, .clockLinearCounter, .decrement .p1, .decrement .p2, .decrement .t,
       .decrement .n, .clockSweeper .p1, .clockSweeper .p2]) := by decide

theorem test_wr34_wr35 :
    look State.st (exec (.wrFramecnt 0x1F) (withSt (at_ 0 .fourStep (.pending 1)))) =
      some (at_ 0 .fourStep (.pending 2)) ∧
    look State.st (exec (.wrFramecnt 0x80) (withSt (at_ 0 .fourStep (.pending 1)))) =
      some (at_ 0 .fiveStep (.pending 1)) := by decide

/-- R31: `reset()` of the triangle, the noise channel and the DMC changes no configuration field and no other channel. -/
theorem test_reset_calls :
    ((counters 1 2 3 4).perform (.reset .t)).t.period = 0 ∧ ((counters 1 2 3 4).perform (.reset .t)).t.lc = lcAt 3 false ∧
    ((counters 1 2 3 4).perform (.reset .n)).n.lc = lcAt 4 false ∧
    ((reader 5 true true).perform (.reset .d)).d.reader.remainingBytes = 5 ∧
    ((counters 1 2 3 4).perform (.reset .d)).p1 = (counters 1 2 3 4).p1 := by decide

/-! Register reads (V-RD) -/

theorem test_rd1 : look (fun t => (t.result, t.st.irqChangeRequested)) (exec .rdStatus .reset) =
    some (.byte 0x00, true) := by decide

/-- V-RD-2: all four counters nonzero, bytes remaining, both flags. -/
def busy : State :=
  { withSt flagSet with collab := { counters 1 2 3 255 with d := (reader 1 true false).d } }

theorem test_rd2 : look (fun t => (t.result, t.st.frameInterruptFlag, t.st.irqChangeRequested)) (exec .rdStatus busy) =
    some (.byte 0xDF, false, true) := by decide

theorem test_rd3 : look State.result (execAll [.rdStatus, .rdStatus] busy) = some (.byte 0x9F) := by decide

theorem test_rd4 : look State.result (exec .rdStatus (withCollab (counters 0 7 0 0))) = some (.byte 0x02) := by decide

theorem test_rd5 : look (fun t => (t.result, t.st)) (exec .rdFramecnt (withSt flagSet)) = some (.byte 0, flagSet) := by
  decide

/-- V-SRC-5. -/
theorem test_src5 : look State.result (exec .rdStatus { withSt flagSet with collab := counters 4 0 1 0 }) =
    some (.byte 0x45) := by decide

/-! The frame sequencer (V-SEQ), the frame events left out of the trace -/

/-- What one CLOCK does to the block state. -/
def clock (st : BlockState) : Option BlockState := look State.st (exec .clk (withSt st))

/-- How many calls one CLOCK makes: 5 with no event, 9 with Q, 15 with QH. -/
def clockCallCount (st : BlockState) : Option Nat := look (fun t => t.trace.length) (exec .clk (withSt st))

theorem test_seq2 : clock (at_ 3728 .fourStep .idle) = some (at_ 3729 .fourStep .idle) ∧
    clockCallCount (at_ 3728 .fourStep .idle) = some 9 := by decide

theorem test_seq3_seq4 : clockCallCount (at_ 7456 .fiveStep .idle) = some 15 ∧
    clockCallCount (at_ 11185 .fiveStep .idle) = some 9 := by decide

theorem test_seq5 : clock (at_ 14914 .fourStep .idle) =
      some { at_ 0 .fourStep .idle with frameInterruptFlag := true, irqChangeRequested := true } ∧
    clockCallCount (at_ 14914 .fourStep .idle) = some 15 := by decide

theorem test_seq6 : clock { at_ 14914 .fourStep .idle with interruptInhibit := true } =
    some { at_ 0 .fourStep .idle with interruptInhibit := true } := by decide

theorem test_seq7_seq8 : clock (at_ 14914 .fiveStep .idle) = some (at_ 14915 .fiveStep .idle) ∧
    clockCallCount (at_ 14914 .fiveStep .idle) = some 5 ∧
    clock (at_ 18640 .fiveStep .idle) = some (at_ 0 .fiveStep .idle) ∧
    clockCallCount (at_ 18640 .fiveStep .idle) = some 15 := by decide

theorem test_seq11 : look State.st (execAll [.wrFramecnt 0, .clk, .clk] (withSt (at_ 18640 .fiveStep .idle))) =
    some (at_ 18642 .fourStep (.pending 0)) := by decide

theorem test_seq13 : clock (at_ 65535 .fourStep (.pending 1)) = some (at_ 0 .fourStep (.pending 0)) := by decide

theorem test_seq17 : clock (at_ 3728 .fiveStep (.pending 0)) = some (at_ 1 .fiveStep .idle) ∧
    clockCallCount (at_ 3728 .fiveStep (.pending 0)) = some 15 := by decide

/-- V-LC-1 to V-LC-4. -/
theorem test_lc : (lcAt 5 false).decrement.counter = 4 ∧ (lcAt 0 false).decrement.counter = 0 ∧
    (lcAt 5 true).decrement.counter = 5 ∧ (lcAt 1 false).decrement.counter = 0 := by decide

/-! The interrupt arbiter (V-IRQ) -/

theorem test_irq1_irq2 : look State.result (exec .iscr .reset) = some (.bool false) ∧
    look State.result (exec .iscr (withCollab (reader 0 false true))) = some (.bool true) := by decide

theorem test_irq3_irq4 : look State.result (exec .pin (withCollab (reader 0 true false))) = some (.bool true) ∧
    look (fun t => (t.result, t.st)) (exec .pin (withSt flagSet)) = some (.bool true, flagSet) := by decide

theorem test_irq5_irq6 :
    look (fun t => (t.st, t.collab.d.reader.changeRequested))
      (exec .clrq { withSt { flagSet with irqChangeRequested := true } with collab := reader 0 false true }) =
      some (flagSet, false) := by decide

/-! The Mixer (V-MIX): the sample times 10^9, rounded to the nearest integer -/

/-- `x · 10^9`, rounded to the nearest integer. -/
def nano : Fp → Option Nat
  | .fin false m e => some (roundDiv (scaleUp (m * 1000000000) e) (scaleUp 1 (-e)))
  | _ => none

/-- A small whole amplitude. -/
def whole (n : Nat) : Fp := .fin false n 0

/-- The binary64 sample of whole amplitudes, in units of 10^-9. -/
def nanoMix (p1 p2 t n d : Nat) : Option Nat :=
  nano (mixer .binary64 (whole p1) (whole p2) (whole t) (whole n) (whole d))

theorem test_mix1_to_mix5 : nanoMix 0 0 0 0 0 = some 0 ∧ nanoMix 8 8 0 0 0 = some 157697368 ∧
    nanoMix 0 0 15 0 0 = some 246412049 ∧ nanoMix 1 0 0 0 0 = some 11652893 ∧
    nanoMix 15 0 0 0 0 = some 149376818 := by decide +kernel

theorem test_mix6_to_mix10 : nanoMix 15 15 0 0 0 = some 258483106 ∧ nanoMix 0 0 0 15 0 = some 174430536 ∧
    nanoMix 0 0 0 0 1 = some 7027443 ∧ nanoMix 0 0 0 0 127 = some 574263682 ∧
    nanoMix 0 0 15 15 127 = some 741516245 := by decide +kernel

theorem test_mix11_to_mix14 : nanoMix 15 15 15 15 127 = some 999999351 ∧ nanoMix 8 0 8 0 0 = some 227524702 ∧
    nanoMix 1 1 1 1 1 = some 61606186 ∧ nanoMix 4 4 8 2 64 = some 539424050 := by decide +kernel

/-- V-MIX-15: -0.0 passes the guard and the contract; the sample is +0.0 in both formats. -/
theorem test_mix15 : (hears 0x8000000000000000 0 0 0 0).collab.outputs.inContract = true ∧
    (hears 0x8000000000000000 0 0 0 0).collab.outputs.sample .binary32 = 0#64 ∧
    (hears 0x8000000000000000 0 0 0 0).collab.outputs.sample .binary64 = 0#64 := by decide +kernel

/-- V-MIX-2 in binary32, to 6 significant digits ("Binary32 agrees to 6 significant digits"). -/
theorem test_mix2_binary32 :
    (nano (mixer .binary32 (whole 8) (whole 8) (whole 0) (whole 0) (whole 0))).map (fun n => (n + 500) / 1000) =
      some 157697 := by decide +kernel

/-- Binary32 rounding by hand: 1 + 2^-24 and 1 + 3·2^-24 are ties, and go to the even neighbour, down and up; half the
least subnormal is a tie to 0, anything above it goes up; the greatest finite value and half a last place past it. -/
theorem test_round_ties :
    Fp.round .binary32 false (2 ^ 24 + 1) (2 ^ 24) = .fin false (2 ^ 23) (-23) ∧
    Fp.round .binary32 false (2 ^ 24 + 3) (2 ^ 24) = .fin false (2 ^ 23 + 2) (-23) ∧
    Fp.round .binary32 true 1 (2 ^ 150) = .fin true 0 (-149) ∧
    Fp.round .binary32 true 3 (2 ^ 151) = .fin true 1 (-149) ∧
    Fp.round .binary32 false ((2 ^ 24 - 1) * 2 ^ 104) 1 = .fin false (2 ^ 24 - 1) 104 ∧
    Fp.round .binary32 false ((2 ^ 25 - 1) * 2 ^ 103) 1 = .inf false := by decide +kernel

/-- A binary64 answer that is no binary32 value (1 + 2^-52) is in contract, and MIX completes on it (R160, R164). -/
theorem test_mix_other_format :
    (hears 0x3FF0000000000001 0 0 0 0).collab.outputs.areOf .binary32 = false ∧
    (look State.trace (exec .mix (hears 0x3FF0000000000001 0 0 0 0))) = some [] := by decide +kernel

/-- CLRQ between two MIXes: the held answers stay (R160). -/
theorem test_clrq_keeps_answers :
    look (fun t => t.collab.outputs) (exec .clrq (hears 1 2 3 4 5)) = some (hears 1 2 3 4 5).collab.outputs := by decide

/-- V-MIX-16, V-MIX-17, V-MIX-18. -/
theorem test_mix16_to_mix18 :
    refusal (exec .mix (hears 0x4030000000000000 0 0 0 0)) = some .amplitudeOutOfContract ∧
    refusal (exec .mix (hears 0x7FF8000000000000 0 0 0 0)) = some .amplitudeOutOfContract ∧
    refusal (exec .mix (hears 0 0 0 0 0x4060000000000000)) = some .amplitudeOutOfContract := by decide +kernel

/-- Binary64 data written out by hand: 1.5, -2.0, the least subnormal, and back. -/
theorem test_pack_unpack : Fp.unpack 0x3FF8000000000000 = .fin false (3 * 2 ^ 51) (-52) ∧
    (Fp.fin true 2 0).pack = 0xC000000000000000#64 ∧ Fp.unpack 1 = .fin false 1 (-1074) ∧
    (Fp.fin false 1 (-1074)).pack = 1#64 := by decide +kernel

/-! Witnesses: for each statement with hypotheses, a state and operands that meet them all -/

/-- The reset state with a schedule. -/
def issues (es : List Event) : State := { State.reset with schedule := es }

theorem witness_StepExecutesDecodedWord :
    (issues [.word 0x2000000]).schedule = .word 0x2000000 :: [] ∧ decode 0x2000000 = .ok .clk ∧
    decodeTableWord 32 0x14017C0 = some (.wrFramecnt 0xC0) := ⟨rfl, rfl, rfl⟩

theorem witness_IllegalWordIsRefused :
    (issues [.word 0x1401601]).schedule = .word 0x1401601 :: [] ∧ legalWord 0x1401601 = false ∧
    legalWord 0x4000000 = false := ⟨rfl, by decide, by decide⟩

theorem witness_OnlyOneByteAccessesRun :
    (issues [.busWrite 0x4015 []]).schedule = .busWrite 0x4015 [] :: [] ∧ ([] : List Byte).length ≠ 1 ∧
    (issues [.busWrite 0x4015 [1, 2]]).schedule = .busWrite 0x4015 [1, 2] :: [] ∧ ([1, 2] : List Byte).length ≠ 1 ∧
    (issues [.busRead 0x4015 0]).schedule = .busRead 0x4015 0 :: [] ∧ (0 : Nat) ≠ 1 ∧
    (issues [.busRead 0x4015 2]).schedule = .busRead 0x4015 2 :: [] ∧ (2 : Nat) ≠ 1 := by decide

theorem witness_DmcActivityChangesOnlyTheReader :
    (issues [.dmcActivity (reader 7 true true).d.reader]).schedule = .dmcActivity (reader 7 true true).d.reader :: [] :=
  rfl

theorem witness_EncodeOfDecodeIsTheWord : decode 0x14009FF = .ok (.wrTriunused 0xFF) := rfl

theorem witness_StatusRead :
    (counters 0 0 0 0).CountersSmall ∧ (counters 255 255 255 255).CountersSmall := by decide

theorem witness_StatusReadRefusesCounterOutOfContract :
    ¬ (counters 256 0 0 0).CountersSmall ∧ ¬ (counters 0 256 0 0).CountersSmall ∧ ¬ (counters 0 0 256 0).CountersSmall ∧
    ¬ (counters 0 0 0 256).CountersSmall := by decide

theorem witness_SecondStatusReadShowsFlagClear : busy.collab.CountersSmall ∧ busy.st.frameInterruptFlag = true := by
  decide

theorem witness_WriteOnlyReadsReturnZero :
    Instr.rdP1Ctrl ∈ writeOnlyReads ∧ Instr.rdFramecnt ∈ writeOnlyReads ∧ writeOnlyReads.length = 21 ∧
    Instr.rdStatus ∉ writeOnlyReads ∧ Reg.p1ctrl ≠ .status ∧ Reg.framecnt ≠ .status := by decide

/-- The hypotheses of `ClockWithoutEvent` on a block state. -/
def noEvent (st : BlockState) : Bool :=
  st.resetDelay ≠ .pending 0 ∧ st.cycle + 1 ≠ 3729#16 ∧ st.cycle + 1 ≠ 7457#16 ∧ st.cycle + 1 ≠ 11186#16 ∧
    ¬ (st.mode = .fourStep ∧ st.cycle + 1 = 14915#16) ∧ ¬ (st.mode = .fiveStep ∧ st.cycle + 1 = 18641#16)

/-- At 0, next to the event counts, at the other mode's terminal count, and where the count wraps. -/
theorem witness_ClockWithoutEvent :
    noEvent (at_ 0 .fourStep .idle) ∧ noEvent (at_ 3727 .fourStep (.pending 2)) ∧ noEvent (at_ 3729 .fiveStep .idle) ∧
    noEvent (at_ 14914 .fiveStep .idle) ∧ noEvent (at_ 18640 .fourStep (.pending 1)) ∧
    noEvent (at_ 65535 .fourStep (.pending 1)) := by decide

theorem witness_ClockAtFrameCounts :
    (at_ 3728 .fourStep (.pending 1)).resetDelay ≠ .pending 0 ∧
    (at_ 3728 .fourStep (.pending 1)).cycle + 1 = 3729#16 ∧ (at_ 11185 .fiveStep .idle).cycle + 1 = 11186#16 ∧
    (at_ 7456 .fiveStep .idle).cycle + 1 = 7457#16 := by decide

theorem witness_ClockAtFourStepTerminal :
    (at_ 14914 .fourStep .idle).resetDelay ≠ .pending 0 ∧ (at_ 14914 .fourStep .idle).mode = .fourStep ∧
    (at_ 14914 .fourStep .idle).cycle + 1 = 14915#16 := by decide

theorem witness_ClockAtFiveStepTerminal :
    (at_ 18640 .fiveStep .idle).resetDelay ≠ .pending 0 ∧ (at_ 18640 .fiveStep .idle).mode = .fiveStep ∧
    (at_ 18640 .fiveStep .idle).cycle + 1 = 18641#16 := by decide

theorem witness_ClockFiresDelayedReset :
    (at_ 14914 .fourStep (.pending 0)).resetDelay = .pending 0 ∧
    (at_ 3728 .fiveStep (.pending 0)).resetDelay = .pending 0 := by decide

theorem witness_DelayedResetFiresOnThirdClock : (0x7F#8).getLsbD 7 = false ∧ (0x00#8).getLsbD 7 = false := by decide

/-- Every delay, next to a terminal count and at the greatest count among them. -/
theorem witness_FiveStepWriteWhilePendingClocksTwice :
    (0x7F#8).getLsbD 7 = false ∧ (0x80#8).getLsbD 7 = true ∧
    (withSt (at_ 14914 .fourStep (.pending 0))).st.resetDelay = .pending 0 ∧
    (withSt (at_ 65535 .fourStep (.pending 1))).st.resetDelay = .pending 1 ∧
    (withSt (at_ 18640 .fiveStep (.pending 2))).st.resetDelay = .pending 2 := by decide

theorem witness_FirstFrameInterruptOnClock14915 :
    State.reset.st.cycle = 0 ∧ State.reset.st.mode = .fourStep ∧ State.reset.st.interruptInhibit = false ∧
    State.reset.st.resetDelay = .idle ∧ State.reset.st.frameInterruptFlag = false ∧ 0 < 14915 ∧ 14914 < 14915 := by decide

theorem witness_FiveStepScheduleRepeats :
    (withSt (at_ 0 .fiveStep .idle)).st.cycle = 0 ∧ (withSt (at_ 0 .fiveStep .idle)).st.mode = .fiveStep ∧
    (withSt (at_ 0 .fiveStep .idle)).st.resetDelay = .idle ∧ 0 < 18641 ∧ 18640 < 18641 := by decide

theorem witness_InhibitedOrFiveStepClocksRaiseNothing :
    (withSt { at_ 14914 .fourStep .idle with interruptInhibit := true }).st.interruptInhibit = true ∧
    (withSt (at_ 14914 .fiveStep .idle)).st.mode = .fiveStep := by decide

theorem witness_LengthCounterContract : LcId.p1 ≠ LcId.n ∧ LcId.t ≠ LcId.p2 := by decide

/-- For each slot, its bit alone set and its bit alone clear. -/
theorem witness_LengthLoadShowsInStatus :
    (counters 255 0 0 0).CountersSmall ∧
    (0x01#8).getLsbD (statusBit .p1) = true ∧ (0xFE#8).getLsbD (statusBit .p1) = false ∧
    (0x02#8).getLsbD (statusBit .p2) = true ∧ (0xFD#8).getLsbD (statusBit .p2) = false ∧
    (0x04#8).getLsbD (statusBit .t) = true ∧ (0xFB#8).getLsbD (statusBit .t) = false ∧
    (0x08#8).getLsbD (statusBit .n) = true ∧ (0xF7#8).getLsbD (statusBit .n) = false := by decide

theorem witness_ServiceRoundDeassertsTheLine :
    (withSt flagSet).collab.CountersSmall ∧ (withSt flagSet).collab.d.reader.irqFlag = false := by decide

/-- Five answers: the greatest in contract, 15.0 and 127.0. -/
def loudest : State :=
  hears 0x402E000000000000 0x402E000000000000 0x402E000000000000 0x402E000000000000 0x405FC00000000000

/-- Five answers: -0.0, the least subnormal of binary64, 1 + 2^-52 (no binary32 value), and +0.0. -/
def oddest : State := hears 0x8000000000000000 1 0x3FF0000000000001 0 0

/-- The exact values of the greatest answers. -/
theorem loudest_values : HaveValues loudest.collab.outputs 15 15 15 15 127 := by
  have h1 : Fp.unpack 0x402E000000000000 = .fin false (15 * 2 ^ 49) (-49) := by decide +kernel
  have h2 : Fp.unpack 0x405FC00000000000 = .fin false (127 * 2 ^ 46) (-46) := by decide +kernel
  norm_num [HaveValues, InputValues, loudest, hears, withCollab, h1, h2, Fp.toRat?]

/-- The exact values of the odd answers. -/
theorem oddest_values : HaveValues oddest.collab.outputs 0 (2 ^ (-1074 : Int)) (1 + 1 / 2 ^ 52) 0 0 := by
  have h1 : Fp.unpack 0x8000000000000000 = .fin true 0 (-1074) := by decide +kernel
  have h2 : Fp.unpack 1 = .fin false 1 (-1074) := by decide +kernel
  have h3 : Fp.unpack 0x3FF0000000000001 = .fin false (2 ^ 52 + 1) (-52) := by decide +kernel
  have h4 : Fp.unpack 0 = .fin false 0 (-1074) := by decide +kernel
  have h5 : (2 : Rat) ^ (-1074 : Int) ≤ 1 := zpow_le_one_of_nonpos₀ (by norm_num) (by norm_num)
  refine ⟨?_, ?_, ?_, ?_, ?_, ?_, ⟨by positivity, by linarith⟩, ?_, ?_, ?_⟩ <;>
    norm_num [oddest, hears, withCollab, h1, h2, h3, h4, Fp.toRat?]

/-- The premises of each clause: a denominator of 1; a sum that is 0 and one that is not; a nonzero divisor and dividend;
a value of each format (the least one); a finite datum; answers in contract, those of all and of one format. -/
theorem witness_MixReturnsTheSample :
    0 < 1 ∧ signed false 1 0 + signed true 1 0 = 0 ∧ signed false 1 0 + signed true 0 0 ≠ 0 ∧
    FormatValue .binary32 (signed false 1 (-149)) ∧ FormatValue .binary64 (signed false 1 (-1074)) ∧
    Fp.unpack 1 = .fin false 1 (-1074) ∧
    HaveValues loudest.collab.outputs 15 15 15 15 127 ∧ loudest.collab.outputs.inContract = true ∧
    HaveValues oddest.collab.outputs 0 (2 ^ (-1074 : Int)) (1 + 1 / 2 ^ 52) 0 0 ∧
    oddest.collab.outputs.inContract = true := by
  refine ⟨by decide, by norm_num [signed], by norm_num [signed], ⟨false, 1, -149, by decide, by decide, by decide, rfl⟩,
    ⟨false, 1, -1074, by decide, by decide, by decide, rfl⟩, by decide +kernel, loudest_values, by decide +kernel,
    oddest_values, by decide +kernel⟩

/-- The contract over the exact values is the test the model makes. -/
theorem amplitudesIn_iff (o : Outputs) : amplitudesIn o ↔ o.inContract = true := by
  have h1 := fun a => (Fp.inRange_iff 15 (Fp.unpack a)).symm
  have h2 := fun a => (Fp.inRange_iff 127 (Fp.unpack a)).symm
  push_cast at h1 h2
  simp only [amplitudesIn, amplitudeIn, Outputs.inContract, Machine.inContract, Bool.and_eq_true, h1, h2, and_assoc]

/-- Out: 16.0, NaN and -1.0 on a pulse, an infinity on the triangle, 128.0 on the DMC. In: 15.0 and 127.0. -/
theorem witness_MixRefusesOutOfContract :
    ¬ amplitudesIn (hears 0x4030000000000000 0 0 0 0).collab.outputs ∧
    ¬ amplitudesIn (hears 0x7FF8000000000000 0 0 0 0).collab.outputs ∧
    ¬ amplitudesIn (hears 0 0xBFF0000000000000 0 0 0).collab.outputs ∧
    ¬ amplitudesIn (hears 0 0 0x7FF0000000000000 0 0).collab.outputs ∧
    ¬ amplitudesIn (hears 0 0 0 0 0x4060000000000000).collab.outputs ∧
    amplitudesIn (hears 0x402E000000000000 0x402E000000000000 0x402E000000000000 0x402E000000000000
      0x405FC00000000000).collab.outputs := by
  simp only [amplitudesIn_iff]
  refine ⟨?_, ?_, ?_, ?_, ?_, ?_⟩ <;> decide +kernel

theorem witness_MixerNeverReturnsNan :
    Machine.inContract (whole 15) (whole 15) (whole 15) (whole 15) (whole 127) = true ∧
    Machine.inContract (.fin true 0 0) (whole 0) (.fin false 1 (-1074)) (whole 0) (whole 0) = true := by decide +kernel

theorem witness_MixerOutputRange :
    (0 : Rat) ≤ 0 ∧ (0 : Rat) ≤ 15 ∧ (15 : Rat) ≤ 15 ∧ (0 : Rat) ≤ 127 ∧ (127 : Rat) ≤ 127 ∧
    InputValues (whole 15) (whole 0) (whole 15) (.fin true 0 0) (whole 127) 15 0 15 0 127 ∧
    HaveValues loudest.collab.outputs 15 15 15 15 127 := by
  refine ⟨by norm_num, by norm_num, by norm_num, by norm_num, by norm_num, ?_, loudest_values⟩
  norm_num [InputValues, whole, Fp.toRat?]

theorem witness_MixerIsMonotone : (0 : Rat) ≤ 0 ∧ (0 : Rat) ≤ 15 ∧ (1 : Rat) ≤ 127 := by decide +kernel

/-- The state a CLOCK, a write and a read answer. -/
theorem witness_CollaboratorsChangeOnlyByTheTrace :
    (∃ t, Answers .clk State.reset t) ∧ (∃ t, Answers (.wrStatus 0x1F) State.reset t) ∧
    (∃ t, Answers .rdStatus State.reset t) ∧ (∃ t, Answers .clrq State.reset t) :=
  ⟨⟨_, rfl⟩, ⟨_, rfl⟩, ⟨_, rfl⟩, ⟨_, rfl⟩⟩

theorem witness_OnlyFrameCounterWriteWritesBlockState :
    (∃ t, Answers (Reg.write .status 0xFF) State.reset t) ∧ Reg.status ≠ .framecnt ∧
    (∃ t, Answers (Reg.write .framecnt 0xFF) State.reset t) := ⟨⟨_, rfl⟩, by decide, ⟨_, rfl⟩⟩

theorem witness_HiddenStateIsWrittenOnlyByItsWriters :
    (∃ t, Answers .clk State.reset t) ∧ (∀ x, Instr.clk ≠ .wrFramecnt x) ∧
    (∃ t, Answers (.wrFramecnt 0xC0) State.reset t) ∧ Instr.wrFramecnt 0xC0 ≠ .clk ∧
    (∃ t, Answers .rdStatus (withSt (at_ 5 .fiveStep (.pending 1))) t) ∧ Instr.rdStatus ≠ .clk ∧
    (∀ x, Instr.rdStatus ≠ .wrFramecnt x) :=
  ⟨⟨_, rfl⟩, fun _ => by simp, ⟨_, rfl⟩, by decide, ⟨_, rfl⟩, by decide, fun _ => by simp⟩

/-- The flag set by the CLOCK that reaches T4, cleared by a status read, cleared by a frame-counter write of `$40`. -/
theorem witness_FrameFlagChangesOnlyByItsPaths :
    (∃ t, Answers .clk (withSt (at_ 14914 .fourStep .idle)) t ∧ t.st.frameInterruptFlag = true) ∧
    (∃ t, Answers .rdStatus (withSt flagSet) t ∧ t.st.frameInterruptFlag = false) ∧
    (∃ t, Answers (.wrFramecnt 0x40) (withSt flagSet) t ∧ t.st.frameInterruptFlag = false) ∧
    (0x40#8).getLsbD 6 = true := ⟨⟨_, rfl, by decide⟩, ⟨_, rfl, by decide⟩, ⟨_, rfl, by decide⟩, by decide⟩

/-- The flag changed by a status read; the latch set, and an operation that is not CLRQ. -/
theorem witness_LatchFollowsTheFlagAndOnlyClrqClearsIt :
    (∃ t, Answers .rdStatus (withSt flagSet) t ∧ t.st.frameInterruptFlag ≠ (withSt flagSet).st.frameInterruptFlag) ∧
    (∃ t, Answers .clk (withSt { flagSet with irqChangeRequested := true }) t) ∧ Instr.clk ≠ .clrq :=
  ⟨⟨_, rfl, by decide⟩, ⟨_, rfl⟩, by decide⟩

/-- Two states that differ in the count, the mode, the inhibit and the delay only. -/
theorem witness_HiddenStateIsNotReturned :
    ({ at_ 9 .fiveStep (.pending 1) with interruptInhibit := true } : BlockState).frameInterruptFlag =
      State.reset.st.frameInterruptFlag ∧
    ({ at_ 9 .fiveStep (.pending 1) with interruptInhibit := true } : BlockState).irqChangeRequested =
      State.reset.st.irqChangeRequested ∧
    (∃ t, Answers .rdStatus State.reset t) ∧
    (∃ t, Answers .rdStatus (withSt { at_ 9 .fiveStep (.pending 1) with interruptInhibit := true }) t) :=
  ⟨rfl, rfl, ⟨_, rfl⟩, ⟨_, rfl⟩⟩

/-- For each clause two different bytes that agree on the bits used. -/
theorem witness_IgnoredBitsHaveNoEffect :
    (0xC0#8).extractLsb' 6 2 = (0xFF#8).extractLsb' 6 2 ∧ (0x1F#8).extractLsb' 0 5 = (0xFF#8).extractLsb' 0 5 ∧
    (0x3F#8).extractLsb' 0 6 = (0xFF#8).extractLsb' 0 6 ∧ (0x8A#8).extractLsb' 0 4 = (0xFA#8).extractLsb' 0 4 ∧
    (0x8A#8).getLsbD 7 = (0xFA#8).getLsbD 7 ∧ (0x18#8).extractLsb' 3 5 = (0x1F#8).extractLsb' 3 5 ∧
    (0xCF#8).extractLsb' 0 4 = (0xFF#8).extractLsb' 0 4 ∧ (0xCF#8).extractLsb' 6 2 = (0xFF#8).extractLsb' 6 2 ∧
    (0x7F#8).extractLsb' 0 7 = (0xFF#8).extractLsb' 0 7 := by decide

/-- Each case is taken by some state. -/
theorem witness_OnlyStatusReadAndMixCanRefuse :
    (∃ t, Answers .pin State.reset t) ∧ ¬ (withCollab (counters 256 0 0 0)).collab.CountersSmall ∧
    (hears 0x4030000000000000 0 0 0 0).collab.outputs.inContract = false := ⟨⟨_, rfl⟩, by decide, by decide +kernel⟩

theorem witness_EveryStepKeepsTheInvariant :
    (issues [.word 0x2000000]).Inv ∧ (∃ t, step (issues [.word 0x2000000]) = .next t) ∧
    (withSt { at_ 18642 .fourStep (.pending 0) with interruptInhibit := true }).Inv := ⟨by decide, ⟨_, rfl⟩, by decide⟩

theorem witness_ConstructionHasTheInvariant : (counters 255 255 255 255).CountersSmall ∧ Collab.init.CountersSmall := by
  decide

/-- One state for each clause: past T4, past T5, inhibited. -/
theorem witness_InvariantGivesTheSpecsInvariants :
    ((withSt (at_ 14916 .fourStep (.pending 2))).Inv ∧ 14915 < (at_ 14916 .fourStep (.pending 2)).cycle.toNat) ∧
    ((withSt (at_ 18642 .fiveStep (.pending 0))).Inv ∧ 18641 < (at_ 18642 .fiveStep (.pending 0)).cycle.toNat) ∧
    (withSt { at_ 5 .fourStep .idle with interruptInhibit := true }).Inv := by decide

/-- The bound itself is reached; an arming write from `Idle` is no re-arming. -/
theorem witness_CountStaysBoundedWithoutRearming :
    (at_ 18642 .fourStep (.pending 0)).CountBounded ∧ (at_ 18640 .fiveStep .idle).CountBounded ∧
    ¬ Rearms (.wrFramecnt 0) (at_ 18640 .fiveStep .idle) ∧
    (∃ t, Answers (.wrFramecnt 0) (withSt (at_ 18640 .fiveStep .idle)) t) := by
  refine ⟨⟨fun h => (by cases h), fun n h => ?_⟩, ⟨fun _ => by decide, fun n h => by cases h⟩, fun h => h.1 rfl, ⟨_, rfl⟩⟩
  cases h; decide

/-- The reset state with the answers renewed, and a step from it; CLRQ between two MIXes from reset. -/
theorem witness_StepsKeepTheOutputsCurrent :
    ((renewed Collab.init).OutputsCurrent ∧
      ∃ t, step { withCollab (renewed Collab.init) with schedule := [.word 0x2000000] } = .next t) ∧
    (Instr.clrq ≠ .clk ∧ (∀ (r : Reg) (x : Byte), Instr.clrq ≠ r.write x) ∧ (∃ t, Answers .clrq State.reset t) ∧
      ∃ u, Answers .mix State.reset u) :=
  ⟨⟨⟨rfl, rfl, rfl, rfl, rfl⟩, ⟨_, rfl⟩⟩, by decide, fun r x => by cases r <;> simp [Reg.write], ⟨_, rfl⟩, ⟨_, rfl⟩⟩

end Sys2Proof.Tests
end

section
/-! PROOFS. A word of the stream that decodes is executed as the instruction it decodes to (spec/20_memory.md R68,
spec/30_encoding.md R77). -/

namespace Sys2Proof.Proofs

open Sys2Proof.Machine

/-- A word that decodes is fetched as a run of its instruction. -/
theorem fetchWord_of_decode_ok {w : Nat} {i : Instr} (hd : decode w = .ok i) (s : State) :
    fetchWord w s = .run i s := by
  simp only [fetchWord, hd]

/-- A step that fetches an instruction is `exec` of it, in the state the fetch leaves. -/
theorem step_of_fetch_run {s s' : State} {i : Instr} (hf : fetch s = .run i s') : step s = exec i s' := by
  simp only [step, hf]

/-- R68, R77: the step rule of a legal word at the head of the schedule. -/
theorem step_of_word_decode_ok {s : State} {w : Nat} {i : Instr} {rest : List Event}
    (hs : s.schedule = .word w :: rest) (hd : decode w = .ok i) :
    step s = exec i { s with schedule := rest } :=
  step_of_fetch_run ((fetch_word hs).trans (fetchWord_of_decode_ok hd _))

/-- A table word is decoded by its low `nbits` bits. -/
theorem decodeTableWord_eq_some {nbits w : Nat} {i : Instr} :
    decodeTableWord nbits w = some i ↔ decode (w % 2 ^ nbits) = .ok i := by
  unfold decodeTableWord
  cases decode (w % 2 ^ nbits) with
  | ok j => simp
  | error e => simp

/-- Issuing a word puts its low `nbits` bits at the head of the schedule. -/
theorem withFetchWord_schedule (s : State) (nbits w : Nat) :
    (s.withFetchWord nbits w).schedule = .word (w % 2 ^ nbits) :: s.schedule := rfl

/-- Taking the issued word off the schedule again gives back the state it was issued in. -/
theorem withFetchWord_restore_schedule (s : State) (nbits w : Nat) :
    { s.withFetchWord nbits w with schedule := s.schedule } = s := rfl

/-- Settles O2: the step rule of a legal word, and its use on the word `withFetchWord` issues. -/
theorem stepExecutesDecodedWord : Obligations.StepExecutesDecodedWord := by
  unfold Obligations.StepExecutesDecodedWord
  constructor
  · intro s w i rest hs hd
    exact step_of_word_decode_ok hs hd
  · intro s nbits w i hd
    calc step (s.withFetchWord nbits w)
        = exec i { s.withFetchWord nbits w with schedule := s.schedule } :=
          step_of_word_decode_ok (withFetchWord_schedule s nbits w) (decodeTableWord_eq_some.mp hd)
      _ = exec i s := by rw [withFetchWord_restore_schedule]

end Sys2Proof.Proofs
end

section
/-! PROOFS. What an operation can do besides changing the block state, said once for all operations: it changes the
collaborators by the calls of its trace, and it returns the value `returned` names (spec/00_scope.md R4, R9;
spec/10_state.md R29, R44). -/

namespace Sys2Proof.Proofs

open Sys2Proof.Machine Sys2Proof.Claims

/-- The value an operation returns, read off the state before it (R4). -/
def returned (i : Instr) (s : State) : Result :=
  match i with
  | .rdStatus => .byte s.statusRead
  | .iscr => .bool s.changeRequested
  | .pin => .bool s.irqLine
  | .mix => .sample (s.collab.outputs.mixed Config.mixFormat)
  | .rdP1Ctrl | .rdP1Sweep | .rdP1Tlo | .rdP1Thi | .rdP2Ctrl | .rdP2Sweep | .rdP2Tlo | .rdP2Thi | .rdTrictrl
  | .rdTriunused | .rdTritlo | .rdTrithi | .rdNoictrl | .rdNoiunused | .rdNoiper | .rdNoilen | .rdDmcctrl | .rdDmcload
  | .rdDmcaddr | .rdDmclen | .rdFramecnt => .byte 0
  | _ => .nothing

/-- `t` is reached inside an operation begun in `s`: the calls of its trace, and nothing else, have changed the
collaborators (R9, R44), and the value returned so far is `r`. -/
structure MadeFrom (s t : State) (r : Result) : Prop where
  collab_eq : t.collab = t.trace.foldl (fun c k => c.perform k) s.collab
  result_eq : t.result = r

namespace MadeFrom

variable {s t u : State} {r : Result}

theorem begin (s : State) : MadeFrom s s.begin .nothing := ⟨rfl, rfl⟩

theorem calls (h : MadeFrom s t r) (ks : List Call) : MadeFrom s (t.calls ks) r :=
  ⟨by simp [h.collab_eq, List.foldl_append], by simp [h.result_eq]⟩

theorem call (h : MadeFrom s t r) (k : Call) : MadeFrom s (t.call k) r := h.calls [k]

theorem onSt (h : MadeFrom s t r) (f : BlockState → BlockState) : MadeFrom s (t.onSt f) r :=
  ⟨h.collab_eq, h.result_eq⟩

theorem returning (h : MadeFrom s t r) (r' : Result) : MadeFrom s (t.returning r') r' := ⟨h.collab_eq, rfl⟩

/-- The DMC part of a status write makes one call or none. -/
theorem dmcEnable (h : MadeFrom s t r) (d : Byte) : MadeFrom s (dmcEnable d t) r := by
  unfold Machine.dmcEnable
  split
  · split
    · exact h
    · exact h.call _
  · exact h.call _

/-- The state a completed operation answers is the state it built. -/
theorem of_next (h : MadeFrom s u r) (hn : (.next u : Host.Outcome State Fault Refusal) = .next t) :
    MadeFrom s t r := Host.Outcome.next.inj hn ▸ h

end MadeFrom

/-- Every operation that completes changes the collaborators by its trace alone and returns `returned`. -/
theorem exec_madeFrom {i : Instr} {s t : State} (h : exec i s = .next t) : MadeFrom s t (returned i s) := by
  have hb := MadeFrom.begin s
  cases i with
  | wrP1Ctrl d | wrP1Thi d | wrP2Ctrl d | wrP2Thi d | wrTrictrl d | wrTrithi d | wrNoictrl d | wrNoiper d
  | wrDmcctrl d => exact (hb.calls _).of_next h
  | wrP1Sweep d | wrP1Tlo d | wrP2Sweep d | wrP2Tlo d | wrTritlo d | wrNoilen d | wrDmcload d | wrDmcaddr d
  | wrDmclen d => exact (hb.call _).of_next h
  | wrTriunused d | wrNoiunused d => exact hb.of_next h
  | wrStatus d => exact (((hb.calls _).dmcEnable d).call _).of_next h
  | wrFramecnt d =>
    have hw := hb.onSt (BlockState.writeFrameCounter d)
    simp only [exec, execWrFramecnt] at h
    cases hm : modeField d <;> rw [hm] at h
    · exact (hw.onSt _).of_next h
    · exact ((hw.calls _).calls _).of_next h
  | rdP1Ctrl | rdP1Sweep | rdP1Tlo | rdP1Thi | rdP2Ctrl | rdP2Sweep | rdP2Tlo | rdP2Thi | rdTrictrl | rdTriunused
  | rdTritlo | rdTrithi | rdNoictrl | rdNoiunused | rdNoiper | rdNoilen | rdDmcctrl | rdDmcload | rdDmcaddr | rdDmclen
  | rdFramecnt | iscr | pin => exact (hb.returning _).of_next h
  | rdStatus =>
    simp only [exec, execRdStatus] at h
    split at h
    · exact ((hb.onSt _).returning _).of_next h
    · cases h
  | clk => rw [exec, execClk_eq] at h; exact MadeFrom.of_next ⟨rfl, rfl⟩ h
  | clrq => exact ((hb.onSt _).call _).of_next h
  | mix =>
    simp only [exec, execMix] at h
    split at h
    · exact (hb.returning _).of_next h
    · cases h

/-- Settles O48: it is the collaborator half of `exec_madeFrom`. -/
theorem collaboratorsChangeOnlyByTheTrace : Obligations.CollaboratorsChangeOnlyByTheTrace := by
  unfold Obligations.CollaboratorsChangeOnlyByTheTrace
  intro i s t h
  exact (exec_madeFrom h).collab_eq

/-- The value returned reads of the block state only the frame flag and the latch. -/
theorem returned_congr_st (i : Instr) {s : State} {st' : BlockState}
    (hf : st'.frameInterruptFlag = s.st.frameInterruptFlag)
    (hl : st'.irqChangeRequested = s.st.irqChangeRequested) :
    returned i { s with st := st' } = returned i s := by
  unfold returned
  split
  · simp only [State.statusRead, hf]
  · simp only [State.changeRequested, hl]
  · simp only [State.irqLine, hf]
  all_goals rfl

/-- Settles O53: both runs return `returned`, which reads none of the four hidden fields. -/
theorem hiddenStateIsNotReturned : Obligations.HiddenStateIsNotReturned := by
  unfold Obligations.HiddenStateIsNotReturned
  intro i s st' t t' hf hl h h'
  calc t.result = returned i s := (exec_madeFrom h).result_eq
    _ = returned i { s with st := st' } := (returned_congr_st i hf hl).symm
    _ = t'.result := (exec_madeFrom h').result_eq.symm

end Sys2Proof.Proofs
end

section
/-! PROOFS. The block state over an operation: which operation writes which field (spec/10_state.md R22-R28), and the
count and frame flag over a CLOCK (spec/42_frame_sequencer.md R141-R144). -/

namespace Sys2Proof.Proofs

open Sys2Proof.Machine Sys2Proof.Claims

/-- The four kinds of operation that write block state, each with its effect, and all the others. -/
theorem exec_st_cases {i : Instr} {s t : State} (h : exec i s = .next t) :
    (i = .clk ∧ t.st = s.st.clocked) ∨ (i = .rdStatus ∧ t.st = s.st.clearFrameFlag) ∨
    (i = .clrq ∧ t.st = s.st.clearLatch) ∨ (∃ d, i = .wrFramecnt d ∧ t.st = s.st.frameWritten d) ∨
    (i ≠ .clk ∧ i ≠ .rdStatus ∧ i ≠ .clrq ∧ (∀ d, i ≠ .wrFramecnt d) ∧ t.st = s.st) := by
  rw [exec_st h]
  unfold BlockState.afterInstr
  split
  case h_1 => exact .inl ⟨rfl, rfl⟩
  case h_2 => exact .inr (.inl ⟨rfl, rfl⟩)
  case h_3 => exact .inr (.inr (.inl ⟨rfl, rfl⟩))
  case h_4 d => exact .inr (.inr (.inr (.inl ⟨d, rfl, rfl⟩)))
  case h_5 hclk hrd hclrq hwr => exact .inr (.inr (.inr (.inr ⟨hclk, hrd, hclrq, hwr, rfl⟩)))

/-! The frame-counter write, field by field (R122) -/

@[simp] theorem frameWritten_cycle (d : Byte) (st : BlockState) : (st.frameWritten d).cycle = st.cycle := by
  unfold BlockState.frameWritten; split <;> simp

@[simp] theorem frameWritten_mode (d : Byte) (st : BlockState) : (st.frameWritten d).mode = modeField d := by
  unfold BlockState.frameWritten; split <;> simp

@[simp] theorem frameWritten_inhibit (d : Byte) (st : BlockState) :
    (st.frameWritten d).interruptInhibit = d.getLsbD 6 := by
  unfold BlockState.frameWritten; split <;> simp [inhibitField]

@[simp] theorem frameWritten_flag (d : Byte) (st : BlockState) :
    (st.frameWritten d).frameInterruptFlag = (st.frameInterruptFlag && !d.getLsbD 6) := by
  unfold BlockState.frameWritten; split <;> simp [inhibitField]

@[simp] theorem frameWritten_latch (d : Byte) (st : BlockState) :
    (st.frameWritten d).irqChangeRequested = (st.irqChangeRequested || d.getLsbD 6) := by
  unfold BlockState.frameWritten; split <;> simp [inhibitField]

theorem frameWritten_delay (d : Byte) (st : BlockState) :
    (st.frameWritten d).resetDelay = if d.getLsbD 7 then st.resetDelay else .pending 2 := by
  unfold BlockState.frameWritten; split <;> simp

/-! CLOCK (R141-R144) -/

/-- The delay part of a CLOCK: nothing is pending, or the reset fires, or it comes one CLOCK nearer. -/
theorem delayed_cases (st : BlockState) :
    (st.resetDelay = .idle ∧ st.delayed = st) ∨
    (st.resetDelay = .pending 0 ∧ st.delayed = (st.setCycle 0).setDelay .idle) ∨
    (∃ n m : Fin 3, m.val + 1 = n.val ∧ st.resetDelay = .pending n ∧ st.delayed = st.setDelay (.pending m)) := by
  unfold BlockState.delayed
  split
  case h_1 hd => exact .inl ⟨hd, rfl⟩
  case h_2 hd => exact .inr (.inl ⟨hd, rfl⟩)
  case h_3 hd => exact .inr (.inr ⟨1, 0, rfl, hd, rfl⟩)
  case h_4 hd => exact .inr (.inr ⟨2, 1, rfl, hd, rfl⟩)

/-- A CLOCK that fires the reset counts to 1, so one that counts to anything else counts on from the count it found. -/
theorem cycle_add_one_of_delayed {st : BlockState} {c : BitVec 16} (hc : c ≠ 1)
    (h : st.delayed.cycle + 1 = c) : st.cycle + 1 = c := by
  rcases delayed_cases st with ⟨-, hd⟩ | ⟨-, hd⟩ | ⟨n, m, -, -, hd⟩
  · rwa [hd] at h
  · rw [hd] at h
    exact absurd h.symm hc
  · rwa [hd] at h

/-- The count after a CLOCK is 0, or it is the incremented count and not the mode's terminal count. -/
theorem clocked_cycle_cases (st : BlockState) :
    st.clocked.cycle = 0 ∨
    (st.clocked.cycle = st.delayed.cycle + 1 ∧ (st.delayed.cycle + 1).toNat ≠ st.mode.terminal) := by
  rcases st.clocked_cases with ⟨-, -, h⟩ | ⟨-, -, h⟩ | ⟨h4, h5, h⟩
  · exact .inl (by rw [h]; rfl)
  · exact .inl (by rw [h]; rfl)
  · refine .inr ⟨by rw [h]; rfl, fun he => ?_⟩
    cases hm : st.mode <;> rw [hm] at he
    · exact h4 ⟨hm, BitVec.eq_of_toNat_eq he⟩
    · exact h5 ⟨hm, BitVec.eq_of_toNat_eq he⟩

/-- A CLOCK leaves the frame flag and the latch, or it is the uninhibited one to T4 in four-step mode and sets both. -/
theorem clocked_flag_cases (st : BlockState) :
    (st.clocked.frameInterruptFlag = st.frameInterruptFlag ∧
      st.clocked.irqChangeRequested = st.irqChangeRequested) ∨
    (st.mode = .fourStep ∧ st.interruptInhibit = false ∧ st.cycle + 1 = Config.t4 ∧ st.clocked.cycle = 0 ∧
      st.clocked.frameInterruptFlag = true ∧ st.clocked.irqChangeRequested = true) := by
  rcases st.clocked_cases with ⟨hm, hc, h⟩ | ⟨-, -, h⟩ | ⟨-, -, h⟩ <;> rw [h]
  · cases hi : st.interruptInhibit
    · exact .inr ⟨hm, rfl, cycle_add_one_of_delayed (by decide) hc, rfl, by simp [hi], by simp [hi]⟩
    · exact .inl ⟨by simp [hi], by simp [hi]⟩
  · exact .inl ⟨by simp, by simp⟩
  · exact .inl ⟨by simp, by simp⟩

/-- Settles O50, by the kinds of operation that write block state. -/
theorem hiddenStateIsWrittenOnlyByItsWriters : Obligations.HiddenStateIsWrittenOnlyByItsWriters := by
  unfold Obligations.HiddenStateIsWrittenOnlyByItsWriters
  intro i s t h
  rcases exec_st_cases h with ⟨rfl, ht⟩ | ⟨rfl, ht⟩ | ⟨rfl, ht⟩ | ⟨d, rfl, ht⟩ | ⟨-, -, -, -, ht⟩ <;> rw [ht]
  · exact ⟨fun _ => by simp, fun hne => absurd rfl hne, fun hne => absurd rfl hne⟩
  · simp
  · simp
  · exact ⟨fun hne => absurd rfl (hne d), fun _ => by simp, fun _ hne => absurd rfl (hne d)⟩
  · simp

/-- Settles O51: of the writers, only CLOCK can set the flag, and only the other two of its paths can clear it. -/
theorem frameFlagChangesOnlyByItsPaths : Obligations.FrameFlagChangesOnlyByItsPaths := by
  unfold Obligations.FrameFlagChangesOnlyByItsPaths
  intro i s t h
  rcases exec_st_cases h with ⟨rfl, ht⟩ | ⟨rfl, ht⟩ | ⟨rfl, ht⟩ | ⟨d, rfl, ht⟩ | ⟨-, hrd, -, hwr, ht⟩ <;> rw [ht]
  · rcases clocked_flag_cases s.st with ⟨hf, -⟩ | ⟨hm, hi, hc, h0, hf, -⟩
    · rw [hf]; simp +contextual
    · rw [hf]; exact ⟨fun _ _ => ⟨rfl, hm, hi, hc, h0⟩, by simp, by simp, by simp⟩
  · simp
  · simp +contextual
  · rw [frameWritten_flag]
    refine ⟨fun hc hs => by simp [hc] at hs, fun hs hc => .inr ⟨d, rfl, by simpa [hs] using hc⟩, by simp,
      fun x hx h6 => ?_⟩
    cases hx
    simp [h6]
  · exact ⟨by simp +contextual, by simp +contextual, fun hi => absurd hi hrd, fun x hi => absurd hi (hwr x)⟩

/-- Settles O52: each effect that changes the flag sets the latch, and the only effect that clears it is CLRQ's. -/
theorem latchFollowsTheFlagAndOnlyClrqClearsIt : Obligations.LatchFollowsTheFlagAndOnlyClrqClearsIt := by
  unfold Obligations.LatchFollowsTheFlagAndOnlyClrqClearsIt
  intro i s t h
  rcases exec_st_cases h with ⟨rfl, ht⟩ | ⟨rfl, ht⟩ | ⟨rfl, ht⟩ | ⟨d, rfl, ht⟩ | ⟨-, -, -, -, ht⟩ <;> rw [ht]
  · rcases clocked_flag_cases s.st with ⟨hf, hl⟩ | ⟨-, -, -, -, -, hl⟩
    · exact ⟨fun hne => absurd hf hne, fun hs _ => hl.trans hs⟩
    · exact ⟨fun _ => hl, fun _ _ => hl⟩
  · simp
  · simp
  · rw [frameWritten_flag, frameWritten_latch]
    cases d.getLsbD 6 <;> simp
  · exact ⟨fun hne => absurd rfl hne, fun hs _ => hs⟩

end Sys2Proof.Proofs
end

section
/-! PROOFS. The machine's invariant and the bound on the count (spec/10_state.md R29, spec/60_exceptions.md R184,
spec/70_reset_and_hazards.md R205). -/

namespace Sys2Proof.Proofs

open Sys2Proof.Machine Sys2Proof.Claims

theorem terminal_pos (m : Mode) : 0 < m.terminal := by cases m <;> decide

theorem terminal_le (m : Mode) : m.terminal ≤ 18641 := by cases m <;> decide

/-- A frame-counter write leaves nothing pending only when it selects five-step mode with nothing pending before it; the
terminal count does not shrink then. -/
theorem frameWritten_countBelowTerminal {st : BlockState} (h : st.CountBelowTerminal) (d : Byte) :
    (st.frameWritten d).CountBelowTerminal := by
  intro hi
  rw [frameWritten_delay] at hi
  rw [frameWritten_cycle, frameWritten_mode]
  split at hi
  case isTrue h7 =>
    have hm : modeField d = .fiveStep := if_pos h7
    rw [hm]
    exact (h hi).trans_le (terminal_le st.mode)
  case isFalse => cases hi

/-- The delay part of a CLOCK keeps the count below the terminal count: the reset that fires puts it to 0. -/
theorem delayed_countBelowTerminal {st : BlockState} (h : st.CountBelowTerminal) :
    st.delayed.CountBelowTerminal := by
  rcases delayed_cases st with ⟨-, hd⟩ | ⟨-, hd⟩ | ⟨n, m, -, -, hd⟩ <;> rw [hd]
  · exact h
  · exact fun _ => terminal_pos st.mode
  · exact fun hi => by cases hi

/-- A CLOCK keeps the count below the terminal count: the count that reaches it goes to 0. -/
theorem clocked_countBelowTerminal {st : BlockState} (h : st.CountBelowTerminal) : st.clocked.CountBelowTerminal := by
  intro hi
  have hb := delayed_countBelowTerminal h (st.clocked_delay ▸ hi)
  rw [BlockState.delayed_mode] at hb
  have hle := terminal_le st.mode
  rw [BlockState.clocked_mode]
  rcases clocked_cycle_cases st with h0 | ⟨hc, hne⟩
  · rw [h0]; exact terminal_pos st.mode
  · rw [hc]; bv_omega

/-- Every operation keeps the count below the terminal count. -/
theorem exec_countBelowTerminal {i : Instr} {s t : State} (h : s.st.CountBelowTerminal) (he : exec i s = .next t) :
    t.st.CountBelowTerminal := by
  rcases exec_st_cases he with ⟨-, ht⟩ | ⟨-, ht⟩ | ⟨-, ht⟩ | ⟨d, -, ht⟩ | ⟨-, -, -, -, ht⟩ <;> rw [ht]
  · exact clocked_countBelowTerminal h
  · exact h
  · exact h
  · exact frameWritten_countBelowTerminal h d
  · exact h

/-- Every operation keeps an inhibited flag clear: CLOCK raises the flag only uninhibited, and the write that inhibits
clears it. -/
theorem exec_inhibitedIsClear {i : Instr} {s t : State} (h : s.st.InhibitedIsClear) (he : exec i s = .next t) :
    t.st.InhibitedIsClear := by
  rcases exec_st_cases he with ⟨-, ht⟩ | ⟨-, ht⟩ | ⟨-, ht⟩ | ⟨d, -, ht⟩ | ⟨-, -, -, -, ht⟩ <;> rw [ht]
  · intro hi
    rw [BlockState.clocked_inhibit] at hi
    rcases clocked_flag_cases s.st with ⟨hf, -⟩ | ⟨-, hn, -⟩
    · exact hf.trans (h hi)
    · rw [hn] at hi; cases hi
  · exact fun _ => rfl
  · exact h
  · intro hi
    rw [frameWritten_inhibit] at hi
    simp [hi]
  · exact h

/-- Every operation keeps the length counters in their range. -/
theorem exec_countersSmall {i : Instr} {s t : State} (h : s.collab.CountersSmall) (he : exec i s = .next t) :
    t.collab.CountersSmall :=
  (exec_madeFrom he).collab_eq ▸ h.foldl t.trace

/-- The DMC's environment step keeps the length counters in their range. -/
theorem dmcActivity_countersSmall {s : State} (h : s.collab.CountersSmall) (r : DmcReader) :
    (s.dmcActivity r).collab.CountersSmall := h

/-- Every operation keeps the invariant. -/
theorem exec_inv {i : Instr} {s t : State} (h : s.Inv) (he : exec i s = .next t) : t.Inv := by
  obtain ⟨hcount, hclear, hsmall⟩ := h
  exact ⟨exec_countBelowTerminal hcount he, exec_inhibitedIsClear hclear he, exec_countersSmall hsmall he⟩

/-- Settles O56: a step is idle, a DMC environment step, or an operation; the stream is no part of the invariant. -/
theorem everyStepKeepsTheInvariant : Obligations.EveryStepKeepsTheInvariant := by
  unfold Obligations.EveryStepKeepsTheInvariant
  intro s t hinv h
  rcases step_cases h with ⟨-, rfl⟩ | ⟨r, rest, -, rfl⟩ | ⟨i, e, rest, -, he⟩
  · exact hinv
  · obtain ⟨hcount, hclear, hsmall⟩ := hinv
    exact ⟨hcount, hclear, dmcActivity_countersSmall hsmall r⟩
  · have hinv' : State.Inv { s with schedule := rest } := hinv
    exact exec_inv hinv' he

/-- Settles O58: a count past the terminal count needs a pending reset, and T5 is past both terminal counts. -/
theorem invariantGivesTheSpecsInvariants : Obligations.InvariantGivesTheSpecsInvariants := by
  unfold Obligations.InvariantGivesTheSpecsInvariants
  rintro s ⟨hcount, hclear, -⟩
  refine ⟨fun hm hgt hi => ?_, fun hgt hi => ?_, hclear⟩
  · have hlt := hcount hi
    rw [hm] at hlt
    exact absurd hlt (Nat.lt_asymm hgt)
  · exact absurd ((hcount hi).trans_le (terminal_le s.st.mode)) (Nat.lt_asymm hgt)

/-! The count without re-arming (R29, R205) -/

/-- The bound gives that the count never exceeds T5 + 1. -/
theorem cycle_le_of_countBounded {st : BlockState} (h : st.CountBounded) : st.cycle.toNat ≤ 18642 := by
  obtain ⟨hidle, hpend⟩ := h
  cases hd : st.resetDelay with
  | idle =>
    have := hidle hd
    have := terminal_le st.mode
    omega
  | pending n =>
    have := hpend n hd
    omega

/-- A frame-counter write keeps the bound unless it re-arms: armed from `Idle` the reset fires two counts further on. -/
theorem frameWritten_countBounded {st : BlockState} {d : Byte} (h : st.CountBounded)
    (hr : ¬ Rearms (.wrFramecnt d) st) : (st.frameWritten d).CountBounded := by
  obtain ⟨hidle, hpend⟩ := h
  refine ⟨frameWritten_countBelowTerminal hidle d, fun n hn => ?_⟩
  rw [frameWritten_delay] at hn
  rw [frameWritten_cycle]
  split at hn
  case isTrue => exact hpend n hn
  case isFalse h7 =>
    have hi : st.resetDelay = .idle := by
      by_contra hne
      exact hr ⟨hne, d, rfl, Bool.eq_false_iff.mpr h7⟩
    have := hidle hi
    have := terminal_le st.mode
    have := n.isLt
    omega

/-- A CLOCK keeps the bound: while a reset is pending the count goes up by one and the delay down by one. -/
theorem clocked_countBounded {st : BlockState} (h : st.CountBounded) : st.clocked.CountBounded := by
  obtain ⟨hidle, hpend⟩ := h
  refine ⟨clocked_countBelowTerminal hidle, fun k hk => ?_⟩
  rw [BlockState.clocked_delay] at hk
  rcases delayed_cases st with ⟨hi, hd⟩ | ⟨-, hd⟩ | ⟨n, m, hmn, hn, hd⟩ <;> rw [hd] at hk
  · rw [hi] at hk; cases hk
  · cases hk
  · cases hk
    have hb := hpend n hn
    rcases clocked_cycle_cases st with h0 | ⟨hc, -⟩
    · rw [h0]
      have := k.isLt
      bv_omega
    · rw [hc, hd, BlockState.setDelay_cycle]
      bv_omega

/-- Every operation that does not re-arm a pending reset keeps the bound. -/
theorem exec_countBounded {i : Instr} {s t : State} (h : s.st.CountBounded) (hr : ¬ Rearms i s.st)
    (he : exec i s = .next t) : t.st.CountBounded := by
  rcases exec_st_cases he with ⟨-, ht⟩ | ⟨-, ht⟩ | ⟨-, ht⟩ | ⟨d, rfl, ht⟩ | ⟨-, -, -, -, ht⟩ <;> rw [ht]
  · exact clocked_countBounded h
  · exact h
  · exact h
  · exact frameWritten_countBounded h hr
  · exact h

theorem reset_countBounded : BlockState.reset.CountBounded :=
  ⟨fun _ => terminal_pos _, fun _ hn => by cases hn⟩

/-- Settles O59: the bound is kept, it implies the limit, and construction has it. -/
theorem countStaysBoundedWithoutRearming : Obligations.CountStaysBoundedWithoutRearming := by
  unfold Obligations.CountStaysBoundedWithoutRearming
  exact ⟨fun _ _ _ h hr he => exec_countBounded h hr he, fun _ h => cycle_le_of_countBounded h, reset_countBounded⟩

end Sys2Proof.Proofs
end

section
/-! PROOFS. What the calls do to the length counters, and what a status write, a length load and a status read show of
them (spec/10_state.md R37-R41; spec/40_register_writes.md R104, R108, R112, R116, R121;
spec/41_register_reads.md R130); and the DMC's environment step (R43). -/

namespace Sys2Proof.Proofs

open Sys2Proof.Machine Sys2Proof.Claims

/-! The four calls on a length counter (R37-R40) -/

/-- A call on one length counter leaves the others. -/
theorem perform_lc_other {i j : LcId} (hji : j ≠ i) (c : Collab) (b : Bool) (x : BitVec 5) :
    (c.perform (.setHalt i b)).lc j = c.lc j ∧ (c.perform (.setEnabled i b)).lc j = c.lc j ∧
    (c.perform (.reloadCounter i x)).lc j = c.lc j ∧ (c.perform (.decrement i)).lc j = c.lc j := by
  simp only [Collab.perform_lc, Call.onCounter, if_neg hji.symm, and_self]

@[simp] theorem perform_setHalt_lc (i : LcId) (b : Bool) (c : Collab) :
    (c.perform (.setHalt i b)).lc i = (c.lc i).setHalt b := by
  rw [Collab.perform_lc, Call.onCounter, if_pos rfl]

@[simp] theorem perform_setEnabled_lc (i : LcId) (b : Bool) (c : Collab) :
    (c.perform (.setEnabled i b)).lc i = (c.lc i).setEnabled b := by
  rw [Collab.perform_lc, Call.onCounter, if_pos rfl]

@[simp] theorem perform_reloadCounter_lc (i : LcId) (x : BitVec 5) (c : Collab) :
    (c.perform (.reloadCounter i x)).lc i = (c.lc i).reload x := by
  rw [Collab.perform_lc, Call.onCounter, if_pos rfl]

@[simp] theorem perform_decrement_lc (i : LcId) (c : Collab) :
    (c.perform (.decrement i)).lc i = (c.lc i).decrement := by
  rw [Collab.perform_lc, Call.onCounter, if_pos rfl]

/-- Settles O38: the four calls' contracts, and that each leaves the other length counters. -/
theorem lengthCounterContract : Obligations.LengthCounterContract := by
  unfold Obligations.LengthCounterContract
  intro i c
  refine ⟨fun b => ?_, fun b => ?_, fun x => ?_, ?_, fun j b x hji => perform_lc_other hji c b x⟩
  · rw [perform_setHalt_lc]; rfl
  · rw [perform_setEnabled_lc]; cases b <;> rfl
  · rw [perform_reloadCounter_lc]; simp [LengthCounter.reload]
  · rw [perform_decrement_lc]; simp [LengthCounter.decrement]

/-! The operations on a length counter, and its bit of the status byte (R104, R121, R130) -/

/-- Calls on the DMC leave every length counter. -/
theorem perform_lc_of_chan_d {k : Call} (hk : k.chan = .d) (i : LcId) (c : Collab) : (c.perform k).lc i = c.lc i := by
  cases i
  · exact congrArg Pulse.lc (Collab.perform_p1 (by simp [hk]) c)
  · exact congrArg Pulse.lc (Collab.perform_p2 (by simp [hk]) c)
  · exact congrArg Triangle.lc (Collab.perform_t (by simp [hk]) c)
  · exact congrArg Noise.lc (Collab.perform_n (by simp [hk]) c)

/-- The DMC part of a status write leaves every length counter. -/
theorem dmcEnable_lc (d : Byte) (i : LcId) (s : State) : (dmcEnable d s).collab.lc i = s.collab.lc i := by
  unfold dmcEnable
  split
  · split
    · rfl
    · exact perform_lc_of_chan_d (k := .restartSample) rfl i s.collab
  · exact perform_lc_of_chan_d (k := .clearRemainingAndSilence) rfl i s.collab

/-- A status write enables or disables each length counter by the slot's bit (R121). -/
theorem exec_wrStatus_lc (d : Byte) (s : State) :
    ∃ t, exec (.wrStatus d) s = .next t ∧
      ∀ i, t.collab.lc i = (s.collab.lc i).setEnabled (d.getLsbD (statusBit i)) := by
  refine ⟨_, rfl, fun i => ?_⟩
  rw [State.call_collab, perform_lc_of_chan_d rfl, dmcEnable_lc]
  cases i <;> rfl

/-- The length write of a slot reloads its length counter (R104, R108, R112, R116). -/
theorem exec_lengthWrite_lc (i : LcId) (d : Byte) (s : State) :
    ∃ t, exec (lengthWrite i d) s = .next t ∧ t.collab.lc i = (s.collab.lc i).reload (d.extractLsb' 3 5) := by
  cases i <;> exact ⟨_, rfl, rfl⟩

/-- The slot's bit of the byte a status read returns is set exactly when its length counter is not 0 (R93). -/
theorem statusRead_getLsbD (s : State) (i : LcId) :
    s.statusRead.getLsbD (statusBit i) = (s.collab.lc i).active := by
  obtain ⟨-, -, -, -, hn, ht, hp2, hp1⟩ := statusByte_bits s.collab.d.reader.irqFlag s.st.frameInterruptFlag
    s.collab.d.remainingMoreThan0 s.collab.n.lc.active s.collab.t.lc.active s.collab.p2.lc.active
    s.collab.p1.lc.active
  cases i
  · exact hp1
  · exact hp2
  · exact ht
  · exact hn

/-- With the counters in their range a status read completes: it returns the status byte and leaves the collaborators
(R130). -/
theorem exec_rdStatus {s : State} (h : s.collab.CountersSmall) :
    ∃ t, exec .rdStatus s = .next t ∧ t.result = .byte s.statusRead ∧ t.collab = s.collab :=
  ⟨_, if_pos ((Collab.countersInContract_iff _).mpr h), rfl, rfl⟩

/-- A run goes on from what its first operation answers. -/
theorem execAll_cons_of_next {i : Instr} {s t : State} (h : exec i s = .next t) (is : List Instr) :
    execAll (i :: is) s = execAll is t := by
  rw [execAll, h]

/-- Loading an enabled length counter makes it active exactly when the table entry is not 0 (R38, R39). -/
theorem active_reload_of_enabled (l : LengthCounter) (x : BitVec 5) :
    ((l.setEnabled true).reload x).active = true ↔ Config.lengthTable x ≠ 0 := by
  have hcounter : ((l.setEnabled true).reload x).counter = (Config.lengthTable x).toNat := by
    simp [LengthCounter.reload, LengthCounter.setEnabled]
  rw [LengthCounter.active, hcounter, bne_iff_ne, Ne, Ne, BitVec.toNat_eq]
  rfl

/-- A disabled length counter is not active (R38). -/
theorem active_setEnabled_false (l : LengthCounter) : (l.setEnabled false).active = false := rfl

/-- Settles O39: the loading run and the disabling run, operation by operation. -/
theorem lengthLoadShowsInStatus : Obligations.LengthLoadShowsInStatus := by
  unfold Obligations.LengthLoadShowsInStatus
  intro i s x y z hs hx hz
  obtain ⟨s1, he1, hlc1⟩ := exec_wrStatus_lc x s
  obtain ⟨s2, he2, hlc2⟩ := exec_lengthWrite_lc i y s1
  have hsmall2 := exec_countersSmall (exec_countersSmall hs he1) he2
  obtain ⟨t, he3, hres3, hcollab3⟩ := exec_rdStatus hsmall2
  obtain ⟨s4, he4, hlc4⟩ := exec_wrStatus_lc z t
  obtain ⟨u, he5, hres5, -⟩ := exec_rdStatus (exec_countersSmall (hcollab3 ▸ hsmall2) he4)
  refine ⟨t, u, s2.statusRead, s4.statusRead, ?_, hres3, ?_, ?_, hres5, ?_⟩
  · rw [execAll_cons_of_next he1, execAll_cons_of_next he2, execAll_cons_of_next he3, execAll]
  · rw [statusRead_getLsbD, hlc2, hlc1, hx]
    exact active_reload_of_enabled _ _
  · rw [execAll_cons_of_next he4, execAll_cons_of_next he5, execAll]
  · rw [statusRead_getLsbD, hlc4, hz]
    exact active_setEnabled_false _

/-! The DMC's environment step (R43) -/

/-- The environment step puts the DMC with the new reader in place and renews its answer to `get_output`. -/
theorem dmcActivity_eq (r : DmcReader) (s : State) :
    s.dmcActivity r = { s with collab := putD (dmcWith s.collab.d r) s.collab } := rfl

/-- Settles O5: a step that takes a DMC entry is the environment step in the state without that entry. -/
theorem dmcActivityChangesOnlyTheReader : Obligations.DmcActivityChangesOnlyTheReader := by
  unfold Obligations.DmcActivityChangesOnlyTheReader
  intro s r rest hs
  rw [step, fetch_dmcActivity hs]
  exact congrArg Host.Outcome.next (dmcActivity_eq r _)

end Sys2Proof.Proofs
end

section
/-! PROOFS. Bus accesses as operations of the stream: exactly one byte (spec/20_memory.md R61), then the operation word of
the access (spec/00_scope.md R9; spec/30_encoding.md R75). -/

namespace Sys2Proof.Proofs

open Sys2Proof.Machine

/-! What is fetched for a bus access -/

theorem fetch_busWrite {s : State} {a : BusAddr} {bytes : List Byte} {rest : List Event}
    (h : s.schedule = .busWrite a bytes :: rest) :
    fetch s = fetchBusWrite a bytes { s with schedule := rest } := by
  simp [fetch, h]

theorem fetch_busRead {s : State} {a : BusAddr} {n : Nat} {rest : List Event}
    (h : s.schedule = .busRead a n :: rest) :
    fetch s = fetchBusRead a n { s with schedule := rest } := by
  simp [fetch, h]

theorem fetchBusWrite_of_length_ne_one {bytes : List Byte} (h : bytes.length ≠ 1) (a : BusAddr) (s : State) :
    fetchBusWrite a bytes s = .reject .widthNotOne := by
  match bytes with
  | [] => rfl
  | [_] => exact absurd rfl h
  | _ :: _ :: _ => rfl

theorem fetchBusRead_of_ne_one {n : Nat} (h : n ≠ 1) (a : BusAddr) (s : State) :
    fetchBusRead a n s = .reject .widthNotOne := by
  have hwidth : ¬ legalWidth n = true := fun hn => h (eq_of_beq hn)
  rw [fetchBusRead, if_neg hwidth]

/-- A write of one byte is fetched as the word with `K` = 01, its address and its byte (R75). -/
theorem fetchBusWrite_singleton (a : BusAddr) (d : Byte) (s : State) :
    fetchBusWrite a [d] s = fetchWord (0x1000000 + a.toNat * 256 + d.toNat) s :=
  congrArg (fetchWord · s) (Opw.toNat_make 1 a d)

/-- A read of one byte is fetched as the word with `K` = 00, its address and `D` = 0 (R75). -/
theorem fetchBusRead_one (a : BusAddr) (s : State) : fetchBusRead a 1 s = fetchWord (a.toNat * 256) s := by
  have hword : (Opw.make 0 a 0).toNat = a.toNat * 256 := by
    rw [Opw.toNat_make]
    simp
  rw [← hword]
  exact if_pos rfl

/-! What a step does with what is fetched -/

theorem step_of_fetch_reject {s : State} {r : Refusal} (h : fetch s = .reject r) : step s = .refused r := by
  rw [step, h]

/-- Two states for which the same word is fetched in the same state step alike: a word is never idle. -/
theorem step_eq_of_fetch_eq_fetchWord {s t u : State} {w : Nat} (hs : fetch s = fetchWord w u)
    (ht : fetch t = fetchWord w u) : step s = step t := by
  rcases fetchWord_cases w u with ⟨i, -, hw⟩ | ⟨-, hw⟩ <;> rw [step, step, hs, ht, hw]

/-- Settles O4: another width is rejected when fetched, and one byte is fetched as its operation word. -/
theorem onlyOneByteAccessesRun : Obligations.OnlyOneByteAccessesRun := by
  unfold Obligations.OnlyOneByteAccessesRun
  refine ⟨fun s a bytes rest hs hwidth => ?_, fun s a n rest hs hwidth => ?_, fun s a d => ?_, fun s a => ?_⟩
  · exact step_of_fetch_reject ((fetch_busWrite hs).trans (fetchBusWrite_of_length_ne_one hwidth a _))
  · exact step_of_fetch_reject ((fetch_busRead hs).trans (fetchBusRead_of_ne_one hwidth a _))
  · exact step_eq_of_fetch_eq_fetchWord ((fetch_busWrite rfl).trans (fetchBusWrite_singleton a d _)) (fetch_word rfl)
  · exact step_eq_of_fetch_eq_fetchWord ((fetch_busRead rfl).trans (fetchBusRead_one a _)) (fetch_word rfl)

end Sys2Proof.Proofs
end

section
/-! PROOFS. The encoding in both directions, and the words that name an operation (spec/30_encoding.md R75-R78, R95,
R97, R98). -/

namespace Sys2Proof.Proofs

open Sys2Proof.Machine

/-! The instructions as bus writes, bus reads, CLOCK and host control (R75) -/

/-- To show something of every instruction, show it of the writes and reads of a register and of the five operations
that take no register. -/
theorem instr_cases {motive : Instr → Prop} (write : ∀ r d, motive (Reg.write r d)) (read : ∀ r, motive (Reg.read r))
    (clk : motive .clk) (clrq : motive .clrq) (iscr : motive .iscr) (pin : motive .pin) (mix : motive .mix) :
    ∀ i, motive i
  | .wrP1Ctrl d => write .p1ctrl d
  | .wrP1Sweep d => write .p1sweep d
  | .wrP1Tlo d => write .p1tlo d
  | .wrP1Thi d => write .p1thi d
  | .wrP2Ctrl d => write .p2ctrl d
  | .wrP2Sweep d => write .p2sweep d
  | .wrP2Tlo d => write .p2tlo d
  | .wrP2Thi d => write .p2thi d
  | .wrTrictrl d => write .trictrl d
  | .wrTriunused d => write .triunused d
  | .wrTritlo d => write .tritlo d
  | .wrTrithi d => write .trithi d
  | .wrNoictrl d => write .noictrl d
  | .wrNoiunused d => write .noiunused d
  | .wrNoiper d => write .noiper d
  | .wrNoilen d => write .noilen d
  | .wrDmcctrl d => write .dmcctrl d
  | .wrDmcload d => write .dmcload d
  | .wrDmcaddr d => write .dmcaddr d
  | .wrDmclen d => write .dmclen d
  | .wrStatus d => write .status d
  | .wrFramecnt d => write .framecnt d
  | .rdP1Ctrl => read .p1ctrl
  | .rdP1Sweep => read .p1sweep
  | .rdP1Tlo => read .p1tlo
  | .rdP1Thi => read .p1thi
  | .rdP2Ctrl => read .p2ctrl
  | .rdP2Sweep => read .p2sweep
  | .rdP2Tlo => read .p2tlo
  | .rdP2Thi => read .p2thi
  | .rdTrictrl => read .trictrl
  | .rdTriunused => read .triunused
  | .rdTritlo => read .tritlo
  | .rdTrithi => read .trithi
  | .rdNoictrl => read .noictrl
  | .rdNoiunused => read .noiunused
  | .rdNoiper => read .noiper
  | .rdNoilen => read .noilen
  | .rdDmcctrl => read .dmcctrl
  | .rdDmcload => read .dmcload
  | .rdDmcaddr => read .dmcaddr
  | .rdDmclen => read .dmclen
  | .rdStatus => read .status
  | .rdFramecnt => read .framecnt
  | .clk => clk
  | .clrq => clrq
  | .iscr => iscr
  | .pin => pin
  | .mix => mix

@[simp] theorem encode_write (r : Reg) (d : Byte) : encode (r.write d) = Opw.make 1 r.addr d := by
  cases r <;> rfl

@[simp] theorem encode_read (r : Reg) : encode r.read = Opw.make 0 r.addr 0 := by
  cases r <;> rfl

/-! Decoding and encoding are inverse to each other (R75-R78) -/

theorem decodeOpw_encode (i : Instr) : decodeOpw (encode i) = .ok i := by
  cases i using instr_cases with
  | write r d => simp [decodeOpw]
  | read r => simp [decodeOpw]
  | clk | clrq | iscr | pin | mix => rfl

theorem decode_encode (i : Instr) : decode (encode i).toNat = .ok i :=
  (decode_toNat _).trans (decodeOpw_encode i)

/-- The operation word of what three fields decode to is made of those fields. -/
theorem encode_of_decodeOpw_make {k : BitVec 2} {a : BusAddr} {d : Byte} {i : Instr}
    (h : decodeOpw (Opw.make k a d) = .ok i) : encode i = Opw.make k a d := by
  simp only [decodeOpw, Opw.kind_make, Opw.addr_make, Opw.data_make] at h
  match k with
  | 0 =>
    cases hr : Reg.atAddr a with
    | none => simp [hr] at h
    | some r =>
      obtain ⟨rfl, rfl⟩ : d = 0 ∧ r.read = i := by simpa [hr, ite_eq_iff] using h
      rw [encode_read, Reg.addr_of_atAddr hr]
  | 1 =>
    cases hr : Reg.atAddr a with
    | none => simp [hr] at h
    | some r =>
      obtain rfl : r.write d = i := by simpa [hr] using h
      rw [encode_write, Reg.addr_of_atAddr hr]
  | 2 =>
    obtain ⟨rfl, rfl, rfl⟩ : a = 0 ∧ d = 0 ∧ .clk = i := by simpa [ite_eq_iff] using h
    rfl
  | 3 =>
    obtain ⟨rfl, hsub⟩ : d = 0 ∧ (a = 0 ∧ .clrq = i ∨ ¬a = 0 ∧ (a = 1 ∧ .iscr = i ∨ ¬a = 1 ∧
        (a = 2 ∧ .pin = i ∨ ¬a = 2 ∧ a = 3 ∧ .mix = i))) := by
      simpa [ite_eq_iff] using h
    obtain ⟨rfl, rfl⟩ | ⟨-, ⟨rfl, rfl⟩ | ⟨-, ⟨rfl, rfl⟩ | ⟨-, rfl, rfl⟩⟩⟩ := hsub <;> rfl

theorem encode_of_decodeOpw {w : Opw} {i : Instr} (h : decodeOpw w = .ok i) : encode i = w := by
  rw [← Opw.make_fields w] at h ⊢
  exact encode_of_decodeOpw_make h

/-- A number decodes to an instruction exactly when it is that instruction's operation word. -/
theorem decode_eq_ok_iff {w : Nat} {i : Instr} : decode w = .ok i ↔ (encode i).toNat = w := by
  constructor
  · intro h
    unfold decode at h
    split at h
    case isTrue hw => rw [encode_of_decodeOpw h, BitVec.toNat_ofNat, Nat.mod_eq_of_lt hw]
    case isFalse => cases h
  · rintro rfl
    exact decode_encode i

/-- Settles O7: on the instructions by their kind, since the fields of a made word are what it was made of. -/
theorem decodeOfEncodeIsTheInstruction : Obligations.DecodeOfEncodeIsTheInstruction := by
  unfold Obligations.DecodeOfEncodeIsTheInstruction
  exact decode_encode

/-- Settles O8: on the branches of the decoder, since a register found at an address has that address. -/
theorem encodeOfDecodeIsTheWord : Obligations.EncodeOfDecodeIsTheWord := by
  unfold Obligations.EncodeOfDecodeIsTheWord
  intro w i h
  exact decode_eq_ok_iff.mp h

/-! The legal words (R95) are the operation words -/

/-- The span and the two single addresses of the enumeration are the addresses of the registers (R76). -/
theorem inEnumeration_iff (a : BusAddr) : inEnumeration a = true ↔ ∃ r : Reg, r.addr = a := by
  constructor
  · intro h
    have hmem : a.toNat ∈ Reg.all.map (fun r => r.addr.toNat) := by
      have hlist : Reg.all.map (fun r => r.addr.toNat) = List.range' 0x4000 20 ++ [0x4015, 0x4017] := by decide
      simp only [inEnumeration, Bool.or_eq_true, Bool.and_eq_true, decide_eq_true_eq, beq_iff_eq] at h
      simp only [hlist, List.mem_append, List.mem_range'_1, List.mem_cons, List.not_mem_nil]
      omega
    obtain ⟨r, -, hr⟩ := List.mem_map.mp hmem
    exact ⟨r, BitVec.eq_of_toNat_eq hr⟩
  · rintro ⟨r, rfl⟩
    cases r <;> rfl

theorem legalOpw_encode (i : Instr) : legalOpw (encode i) = true := by
  have hin (r : Reg) : inEnumeration r.addr = true := (inEnumeration_iff _).mpr ⟨r, rfl⟩
  cases i using instr_cases with
  | write r d => simp [legalOpw_make, hin]
  | read r => simp [legalOpw_make, hin]
  | clk | clrq | iscr | pin | mix => rfl

/-- Three fields that make a legal word make the operation word of an instruction. -/
theorem exists_encode_of_legalOpw_make {k : BitVec 2} {a : BusAddr} {d : Byte}
    (h : legalOpw (Opw.make k a d) = true) : ∃ i, encode i = Opw.make k a d := by
  rw [legalOpw_make] at h
  match k with
  | 0 =>
    obtain ⟨hin, hd⟩ : inEnumeration a = true ∧ d = 0 := by simpa using h
    obtain ⟨r, rfl⟩ := (inEnumeration_iff a).mp hin
    exact ⟨r.read, by rw [encode_read, hd]⟩
  | 1 =>
    obtain ⟨r, rfl⟩ := (inEnumeration_iff a).mp h
    exact ⟨r.write d, encode_write r d⟩
  | 2 =>
    obtain ⟨rfl, rfl⟩ : a = 0 ∧ d = 0 := by simpa using h
    exact ⟨.clk, rfl⟩
  | 3 =>
    obtain ⟨ha, rfl⟩ : a.toNat ≤ 3 ∧ d = 0 := by simpa using h
    obtain rfl | rfl | rfl | rfl : a = 0 ∨ a = 1 ∨ a = 2 ∨ a = 3 := by bv_omega
    · exact ⟨.clrq, rfl⟩
    · exact ⟨.iscr, rfl⟩
    · exact ⟨.pin, rfl⟩
    · exact ⟨.mix, rfl⟩

/-- A number is legal exactly when it is the operation word of an instruction. -/
theorem legalWord_iff (w : Nat) : legalWord w = true ↔ ∃ i, (encode i).toNat = w := by
  constructor
  · intro h
    obtain ⟨hw, hlegal⟩ : w < 2 ^ 26 ∧ legalOpw (BitVec.ofNat 26 w) = true := by
      simpa [legalWord] using h
    rw [← Opw.make_fields (BitVec.ofNat 26 w)] at hlegal
    obtain ⟨i, hi⟩ := exists_encode_of_legalOpw_make hlegal
    refine ⟨i, ?_⟩
    rw [hi, Opw.make_fields, BitVec.toNat_ofNat, Nat.mod_eq_of_lt hw]
  · rintro ⟨i, rfl⟩
    simp [legalWord, legalOpw_encode, (encode i).isLt]

/-- Settles O6: both are the numbers that are some instruction's operation word. -/
theorem decodableWordsAreTheLegalWords : Obligations.DecodableWordsAreTheLegalWords := by
  unfold Obligations.DecodableWordsAreTheLegalWords
  intro w
  simp only [decode_eq_ok_iff, legalWord_iff]

/-- Settles O3: an illegal word does not decode, so it is rejected when fetched. -/
theorem illegalWordIsRefused : Obligations.IllegalWordIsRefused := by
  unfold Obligations.IllegalWordIsRefused
  intro s w rest hs hillegal
  rcases fetchWord_cases w { s with schedule := rest } with ⟨i, hd, -⟩ | ⟨-, hreject⟩
  · have hlegal : legalWord w = true := (decodableWordsAreTheLegalWords w).mp ⟨i, hd⟩
    rw [hlegal] at hillegal
    cases hillegal
  · exact step_of_fetch_reject ((fetch_word hs).trans hreject)

/-- Settles O9: each number is the operation word of the instruction it stands for. -/
theorem specWordsDecode : Obligations.SpecWordsDecode := by
  unfold Obligations.SpecWordsDecode
  exact ⟨decode_encode (.wrFramecnt 0xC0), decode_encode .rdStatus, decode_encode .clk, decode_encode .clrq,
    decode_encode .iscr, decode_encode .pin, decode_encode .mix, decode_encode (.wrTriunused 0xFF),
    decode_encode (.wrDmcctrl 0), decode_encode (.wrTrithi 0xF9)⟩

/-! Assembly lines (R97, R98) -/

/-- A line is assembled by the address its operand stands for, so a name assembles as its address does. -/
theorem assemble_wr_name (r : Reg) (d : Byte) :
    AsmLine.assemble (.wr (.name r) d) = AsmLine.assemble (.wr (.num r.addr) d) := rfl

theorem assemble_rd_name (r : Reg) :
    AsmLine.assemble (.rd (.name r)) = AsmLine.assemble (.rd (.num r.addr)) := rfl

/-- Settles O10: a line with a name is the encoded write or read; the other lines have no operand. -/
theorem assemblyLinesAreEncodings : Obligations.AssemblyLinesAreEncodings := by
  unfold Obligations.AssemblyLinesAreEncodings
  refine ⟨fun r d => ?_, fun r => ?_, assemble_wr_name, assemble_rd_name, fun n => rfl, rfl, rfl, rfl, rfl⟩
  · rw [encode_write]; rfl
  · rw [encode_read]; rfl

end Sys2Proof.Proofs
end

section
/-! PROOFS. The bits of a data byte that a write does not use (spec/30_encoding.md R84-R88, R91, R92, R94). -/

namespace Sys2Proof.Proofs

open Sys2Proof.Machine

/-! Bits of a common field -/

/-- Bytes that agree on a field agree on each of its bits. -/
theorem getLsbD_eq_of_extractLsb'_eq {x y : Byte} {start len : Nat}
    (h : x.extractLsb' start len = y.extractLsb' start len) (i : Nat) (hi : i < len) :
    x.getLsbD (start + i) = y.getLsbD (start + i) := by
  have hbit := congrArg (fun v => v.getLsbD i) h
  simpa [BitVec.getLsbD_extractLsb', hi] using hbit

/-- Bytes that agree on a field agree on its low bits. -/
theorem extractLsb'_eq_of_le {x y : Byte} {start len n : Nat}
    (h : x.extractLsb' start len = y.extractLsb' start len) (hn : n ≤ len) :
    x.extractLsb' start n = y.extractLsb' start n := by
  apply BitVec.eq_of_getLsbD_eq
  intro i hi
  simp [BitVec.getLsbD_extractLsb', getLsbD_eq_of_extractLsb'_eq h i (hi.trans_le hn)]

/-! The writes use their byte only through its fields -/

section
variable {x y : Byte}

theorem exec_wrFramecnt_congr (hmode : modeField x = modeField y) (hinh : inhibitField x = inhibitField y)
    (s : State) : exec (.wrFramecnt x) s = exec (.wrFramecnt y) s := by
  have hwrite : BlockState.writeFrameCounter x = BlockState.writeFrameCounter y := by
    funext st
    simp only [BlockState.writeFrameCounter, hmode, hinh]
  simp only [exec, execWrFramecnt, hmode, hwrite]

theorem exec_wrStatus_congr (h : ∀ i < 5, x.getLsbD i = y.getLsbD i) (s : State) :
    exec (.wrStatus x) s = exec (.wrStatus y) s := by
  have henable (i : LcId) : enableField i x = enableField i y := by
    cases i <;> exact h _ (by decide)
  have hdmc : dmcEnableField x = dmcEnableField y := h 4 (by decide)
  simp only [exec, execWrStatus, dmcEnable, henable, hdmc]

end

/-- Settles O54: the fields of each write lie in the bits on which the two bytes agree. -/
theorem ignoredBitsHaveNoEffect : Obligations.IgnoredBitsHaveNoEffect := by
  unfold Obligations.IgnoredBitsHaveNoEffect
  intro x y s
  refine ⟨fun h => ?_, fun h => ?_, fun h => ?_, fun hper hmode => ?_, fun h => ?_, fun hrate htop => ?_, fun h => ?_,
    rfl, rfl⟩
  · have hmode : modeField x = modeField y := by
      rw [modeField, getLsbD_eq_of_extractLsb'_eq h 1 (by decide), modeField]
    exact exec_wrFramecnt_congr hmode (getLsbD_eq_of_extractLsb'_eq h 0 (by decide)) s
  · exact exec_wrStatus_congr (fun i hi => by simpa using getLsbD_eq_of_extractLsb'_eq h i hi) s
  · have hvol : volField x = volField y := extractLsb'_eq_of_le h (by decide)
    have hconst : constField x = constField y := getLsbD_eq_of_extractLsb'_eq h 4 (by decide)
    have hhalt : haltLoopField x = haltLoopField y := getLsbD_eq_of_extractLsb'_eq h 5 (by decide)
    simp only [exec, execWrNoictrl, hvol, hconst, hhalt]
  · have hp : noisePeriodField x = noisePeriodField y := hper
    have hm : noiseModeField x = noiseModeField y := hmode
    simp only [exec, execWrNoiper, hp, hm]
  · have hlen : lenField x = lenField y := h
    simp only [exec, execWrNoilen, hlen]
  · have hr : rateField x = rateField y := hrate
    have hloop : dmcLoopField x = dmcLoopField y := getLsbD_eq_of_extractLsb'_eq htop 0 (by decide)
    have hirq : irqEnField x = irqEnField y := getLsbD_eq_of_extractLsb'_eq htop 1 (by decide)
    simp only [exec, execWrDmcctrl, hr, hloop, hirq]
  · have hlevel : directLevelField x = directLevelField y := h
    simp only [exec, execWrDmcload, hlevel]

end Sys2Proof.Proofs
end

section
/-! PROOFS. The register writes (spec/40_register_writes.md R100-R122): the operation word of each, the calls it makes in
order, and the collaborators these calls leave. -/

namespace Sys2Proof.Proofs

open Sys2Proof.Machine Sys2Proof.Claims

/-! The block state over a write (R100) -/

theorem afterInstr_write_of_ne_framecnt {r : Reg} (hr : r ≠ .framecnt) (x : Byte) (st : BlockState) :
    st.afterInstr (r.write x) = st := by
  cases r with
  | framecnt => exact absurd rfl hr
  | _ => rfl

theorem afterInstr_write_cycle (r : Reg) (x : Byte) (st : BlockState) :
    (st.afterInstr (r.write x)).cycle = st.cycle := by
  by_cases hr : r = .framecnt
  · subst hr
    exact frameWritten_cycle x st
  · rw [afterInstr_write_of_ne_framecnt hr]

/-- Settles O49: the block state after a write is `afterInstr` of it. -/
theorem onlyFrameCounterWriteWritesBlockState : Obligations.OnlyFrameCounterWriteWritesBlockState := by
  unfold Obligations.OnlyFrameCounterWriteWritesBlockState
  intro r x s t h
  rw [exec_st h]
  exact ⟨afterInstr_write_cycle r x s.st, fun hr => afterInstr_write_of_ne_framecnt hr x s.st⟩

/-! The word of a write, and the state after its calls -/

/-- The word of a write: kind 01, the address of the register, the byte (R75-R77). -/
theorem isWord_write (r : Reg) (x : Byte) : IsWord (2 ^ 24 + r.addr.toNat * 2 ^ 8 + x.toNat) (r.write x) := by
  rw [IsWord, decode_eq_ok_iff, encode_write, Opw.toNat_make]
  rfl

/-- The channel `ch` as it is in `c'`, with its answer to `get_output`; everything else as in `c`. -/
def withChannel (ch : ChanId) (c' c : Collab) : Collab :=
  match ch with
  | .p1 => putP1 c'.p1 c
  | .p2 => putP2 c'.p2 c
  | .t => putT c'.t c
  | .n => putN c'.n c
  | .d => putD c'.d c

theorem withChannel_withChannel (ch : ChanId) (c'' c' c : Collab) :
    withChannel ch c'' (withChannel ch c' c) = withChannel ch c'' c := by
  cases ch <;> rfl

/-- A call changes the channel it is made on and nothing else (R31-R43). -/
theorem perform_eq_withChannel {k : Call} (hk : k.mayChangeOutput = true) (c : Collab) :
    c.perform k = withChannel k.chan (c.perform k) c := by
  cases k with
  | clearChangeRequest => cases hk
  | timerClock i | reset i | setDuty i | setPeriod i | setVolume i | setEnvLoopFlag i | setStartFlag i | envClock i
  | setHalt i | setEnabled i | reloadCounter i | decrement i | setSweeperData i | clockSweeper i => cases i <;> rfl
  | _ => rfl

/-- Every call of the list is made on the channel `ch`, and none is CLRQ's. -/
def callsOn (ch : ChanId) (ks : List Call) : Bool :=
  ks.all fun k => k.chan == ch && k.mayChangeOutput

/-- Calls on one channel change that channel and nothing else. -/
theorem foldl_perform_eq_withChannel {ch : ChanId} {k : Call} {ks : List Call} (h : callsOn ch (k :: ks) = true)
    (c : Collab) :
    (k :: ks).foldl (fun c k => c.perform k) c =
      withChannel ch ((k :: ks).foldl (fun c k => c.perform k) c) c := by
  induction ks generalizing k c with
  | nil =>
    obtain ⟨rfl, hk⟩ : k.chan = ch ∧ k.mayChangeOutput = true := by simpa [callsOn] using h
    exact perform_eq_withChannel hk c
  | cons k' ks ih =>
    obtain ⟨⟨rfl, hk⟩, hks⟩ : (k.chan = ch ∧ k.mayChangeOutput = true) ∧ callsOn ch (k' :: ks) = true := by
      simpa [callsOn] using h
    have hfirst := congrArg (withChannel k.chan ((k' :: ks).foldl (fun c k => c.perform k) (c.perform k)))
      (perform_eq_withChannel hk c)
    exact ((ih hks (c.perform k)).trans hfirst).trans (withChannel_withChannel ..)

theorem begin_calls_eq_after (ks : List Call) (s : State) :
    s.begin.calls ks = after s ks .nothing (ks.foldl (fun c k => c.perform k) s.collab) :=
  State.calls_eq ks s.begin

/-- A write that only makes calls leaves them as its trace and changes the collaborators by them one after another (R9,
R44). -/
theorem answers_of_calls {i : Instr} {s : State} {ks : List Call} {c : Collab}
    (hexec : exec i s = .next (s.begin.calls ks)) (hcollab : ks.foldl (fun c k => c.perform k) s.collab = c) :
    Answers i s (after s ks .nothing c) := by
  rw [Answers, hexec, begin_calls_eq_after, hcollab]

/-- A write that only makes calls on one channel changes that channel and nothing else. Of a claim about such a write
there is left to check what its calls, run one after another, make of the channel's record. -/
theorem answers_of_callsOn (ch : ChanId) {i : Instr} {s : State} {k : Call} {ks : List Call}
    (hexec : exec i s = .next (s.begin.calls (k :: ks))) (h : callsOn ch (k :: ks) = true) :
    Answers i s (after s (k :: ks) .nothing
      (withChannel ch ((k :: ks).foldl (fun c k => c.perform k) s.collab) s.collab)) :=
  answers_of_calls hexec (foldl_perform_eq_withChannel h s.collab)

/-! The effects the claims write out field by field, as the calls' own -/

/-- The masks of a timer-low write keep the upper half of the period and take the byte as its lower half (R103). -/
theorem lowReplaced_eq (v : BitVec 16) (x : Byte) : lowReplaced v x = periodWithLow v x := by
  have hv : v.extractLsb' 8 8 ++ v.extractLsb' 0 8 = v :=
    (BitVec.extractLsb'_append_extractLsb'_eq_extractLsb' rfl).trans BitVec.extractLsb'_eq_self
  have hx : x.zeroExtend 16 = 0#8 ++ x := BitVec.setWidth_eq_append (by decide)
  have hmask : 0xFF00#16 = BitVec.allOnes 8 ++ 0#8 := rfl
  calc lowReplaced v x
      = (v.extractLsb' 8 8 ++ v.extractLsb' 0 8) &&& (BitVec.allOnes 8 ++ 0#8) ||| (0#8 ++ x) := by
        rw [lowReplaced, hv, hx, hmask]
    _ = periodWithLow v x := by
        simp only [BitVec.and_append, BitVec.or_append, BitVec.and_allOnes, BitVec.and_zero, BitVec.or_zero,
          BitVec.zero_or, periodWithLow]

/-- The masked and shifted byte of a timer-high write is its field `thi` in bits 10:8 (R82). -/
theorem shiftLeft_thi_eq (x : Byte) : (x.zeroExtend 16 &&& 7#16) <<< 8 = 0#5 ++ thiField x ++ 0#8 := by
  have hmask : ∀ i < 16, (7#16).getLsbD i = decide (i < 3) := by decide
  apply BitVec.eq_of_getLsbD_eq
  intro i hi
  simp only [BitVec.getLsbD_shiftLeft, BitVec.getLsbD_and, hmask (i - 8) (by omega), BitVec.getLsbD_append, thiField,
    BitVec.getLsbD_extractLsb', BitVec.getLsbD_zero]
  by_cases hlow : i < 8
  · simp [hlow]
  · have hwidth : i - 8 < 16 := by omega
    by_cases hthi : i - 8 < 3 <;> simp [hthi, hi, hwidth, hlow]

/-- The masks of a timer-high write keep period bits 15:11 and 7:0 (R104). -/
theorem highReplaced_eq (v : BitVec 16) (x : Byte) : highReplaced v x = periodWithHigh v x := by
  have hv : v.extractLsb' 11 5 ++ v.extractLsb' 8 3 ++ v.extractLsb' 0 8 = v := by
    rw [BitVec.extractLsb'_append_extractLsb'_eq_extractLsb' (start₂ := 11) (start₁ := 8) rfl]
    exact (BitVec.extractLsb'_append_extractLsb'_eq_extractLsb' rfl).trans BitVec.extractLsb'_eq_self
  have hmask : 0xF8FF#16 = BitVec.allOnes 5 ++ 0#3 ++ BitVec.allOnes 8 := rfl
  calc highReplaced v x
      = (v.extractLsb' 11 5 ++ v.extractLsb' 8 3 ++ v.extractLsb' 0 8) &&&
          (BitVec.allOnes 5 ++ 0#3 ++ BitVec.allOnes 8) ||| (0#5 ++ thiField x ++ 0#8) := by
        rw [highReplaced, hv, hmask, shiftLeft_thi_eq]
    _ = periodWithHigh v x := by
        simp only [BitVec.and_append, BitVec.or_append, BitVec.and_allOnes, BitVec.and_zero, BitVec.or_zero,
          BitVec.zero_or, periodWithHigh]

theorem reloaded_eq (x : Byte) (l : LengthCounter) : reloaded x l = l.reload (lenField x) := by
  simp [reloaded, LengthCounter.reload, lenField]

theorem lcEnabled_eq (b : Bool) (l : LengthCounter) : lcEnabled b l = l.setEnabled b := by
  cases b <;> rfl

theorem lcDecremented_eq (l : LengthCounter) : lcDecremented l = l.decrement := by
  obtain ⟨counter, halt, enabled⟩ := l
  cases counter <;> cases halt <;> rfl

/-! Pulse writes -/

/-- Settles O11: the five calls on either slot; bit 5 of the byte goes into two of them. -/
theorem pulseControlWrite : Obligations.PulseControlWrite := by
  unfold Obligations.PulseControlWrite
  intro x s
  exact ⟨isWord_write .p1ctrl x, isWord_write .p2ctrl x, answers_of_callsOn .p1 rfl rfl, answers_of_callsOn .p2 rfl rfl⟩

/-- Settles O12: the one call puts the byte into the sweep unit. -/
theorem pulseSweepWrite : Obligations.PulseSweepWrite := by
  unfold Obligations.PulseSweepWrite
  intro x s
  exact ⟨isWord_write .p1sweep x, isWord_write .p2sweep x, answers_of_callsOn .p1 rfl rfl,
    answers_of_callsOn .p2 rfl rfl⟩

/-- Settles O13: the one call sets the period, whose masks are those of `lowReplaced`. -/
theorem timerLowWrite : Obligations.TimerLowWrite := by
  unfold Obligations.TimerLowWrite
  intro x s
  simp only [lowReplaced_eq]
  exact ⟨isWord_write .p1tlo x, isWord_write .p2tlo x, isWord_write .tritlo x, answers_of_callsOn .p1 rfl rfl,
    answers_of_callsOn .p2 rfl rfl, answers_of_callsOn .t rfl rfl⟩

/-- Settles O14: the four calls on either slot; the channel's reset comes last. -/
theorem pulseTimerHighWrite : Obligations.PulseTimerHighWrite := by
  unfold Obligations.PulseTimerHighWrite
  intro x s
  simp only [pulseReloaded, highReplaced_eq, reloaded_eq]
  exact ⟨isWord_write .p1thi x, isWord_write .p2thi x, answers_of_callsOn .p1 rfl rfl, answers_of_callsOn .p2 rfl rfl⟩

/-! Triangle and noise writes -/

/-- Settles O15: the three calls on the triangle, the halt among them as `TRI_HALT_FROM_CTRL` is true. -/
theorem triangleControlWrite : Obligations.TriangleControlWrite := by
  unfold Obligations.TriangleControlWrite
  intro x s
  exact ⟨isWord_write .trictrl x, answers_of_callsOn .t rfl rfl⟩

/-- Settles O16: the three calls on the triangle: on its period, its length counter and its linear counter. -/
theorem triangleTimerHighWrite : Obligations.TriangleTimerHighWrite := by
  unfold Obligations.TriangleTimerHighWrite
  intro x s
  simp only [highReplaced_eq, reloaded_eq]
  exact ⟨isWord_write .trithi x, answers_of_callsOn .t rfl rfl⟩

/-- Settles O17: no call is made. -/
theorem unusedSlotWrites : Obligations.UnusedSlotWrites := by
  unfold Obligations.UnusedSlotWrites
  intro x s
  exact ⟨isWord_write .triunused x, isWord_write .noiunused x, answers_of_calls rfl rfl, answers_of_calls rfl rfl⟩

/-- Settles O18: the four calls on the noise channel: on its envelope and its length counter. -/
theorem noiseControlWrite : Obligations.NoiseControlWrite := by
  unfold Obligations.NoiseControlWrite
  intro x s
  exact ⟨isWord_write .noictrl x, answers_of_callsOn .n rfl rfl⟩

/-- Settles O19: two calls on the channel's own fields, and one on its length counter. -/
theorem noisePeriodAndLengthWrites : Obligations.NoisePeriodAndLengthWrites := by
  unfold Obligations.NoisePeriodAndLengthWrites
  intro x s
  simp only [reloaded_eq]
  exact ⟨isWord_write .noiper x, isWord_write .noilen x, answers_of_callsOn .n rfl rfl, answers_of_callsOn .n rfl rfl⟩

/-! DMC writes -/

/-- Settles O20: the three calls; disabling the IRQ may clear the IRQ flag, and nothing raises it. -/
theorem dmcControlWrite : Obligations.DmcControlWrite := by
  unfold Obligations.DmcControlWrite
  intro x s
  refine ⟨isWord_write .dmcctrl x, s.collab.d.reader.irqFlag && (x.getLsbD 7 || !Config.dmcIrqDisableClearsFlag _), _,
    answers_of_callsOn .d rfl rfl, fun hirq => ?_, fun hen => ?_⟩
  · exact (Bool.and_eq_true_iff.mp hirq).1
  · rw [hen, Bool.true_or, Bool.and_true]

/-- Settles O21: each call sets its field and, besides, the internal state alone. -/
theorem dmcLevelAddressLengthWrites : Obligations.DmcLevelAddressLengthWrites := by
  unfold Obligations.DmcLevelAddressLengthWrites
  intro x s
  exact ⟨isWord_write .dmcload x, isWord_write .dmcaddr x, isWord_write .dmclen x, ⟨_, answers_of_callsOn .d rfl rfl⟩,
    ⟨_, answers_of_callsOn .d rfl rfl⟩, ⟨_, answers_of_callsOn .d rfl rfl⟩⟩

/-! Status and frame counter -/

/-- The call of the DMC part of a status write, if it makes one (R121). -/
def dmcEnableCalls (x : Byte) (d : Dmc) : List Call :=
  if x.getLsbD 4 = false then [.clearRemainingAndSilence]
  else if d.reader.remainingBytes = 0 then [.restartSample]
  else []

theorem dmcEnable_eq (x : Byte) (s : State) : dmcEnable x s = s.calls (dmcEnableCalls x s.collab.d) := by
  unfold dmcEnable dmcEnableCalls dmcEnableField Dmc.remainingMoreThan0
  cases x.getLsbD 4 with
  | false => rfl
  | true => cases s.collab.d.reader.remainingBytes <;> rfl

/-- Settles O22: the enables leave the DMC, so the DMC's case is decided on the state before the write. -/
theorem statusWrite : Obligations.StatusWrite := by
  unfold Obligations.StatusWrite
  intro x s c enables reader dmcCalls
  have hexec : exec (.wrStatus x) s = .next (s.begin.calls (enables ++ dmcCalls ++ [.clearIrqFlag])) := by
    rw [begin_calls_eq_after, exec, execWrStatus, dmcEnable_eq, begin_calls_eq_after, State.calls_eq]
    simp only [List.foldl_append]
    rfl
  refine ⟨isWord_write .status x, answers_of_calls hexec ?_⟩
  simp only [lcEnabled_eq, dmcCalls, reader]
  split
  · rfl
  · split <;> rfl

/-- The quarter-frame calls fire the quarter-frame event (R146). -/
theorem foldl_quarterFrameCalls (c : Collab) :
    quarterFrameCalls.foldl (fun c k => c.perform k) c = quarterFired c := rfl

/-- The half-frame calls fire the half-frame event: the sweep units see the decremented length counters (R147). -/
theorem foldl_halfFrameCalls (c : Collab) : halfFrameCalls.foldl (fun c k => c.perform k) c = halfFired c := by
  simp only [halfFired, pulseHalfFired, lcDecremented_eq]
  rfl

/-- The block state after a frame-counter write, field by field (R122). -/
theorem frameWritten_eq (x : Byte) (st : BlockState) :
    st.frameWritten x =
      { cycle := st.cycle
        mode := if x.getLsbD 7 = true then .fiveStep else .fourStep
        interruptInhibit := x.getLsbD 6
        frameInterruptFlag := if x.getLsbD 6 = true then false else st.frameInterruptFlag
        irqChangeRequested := if x.getLsbD 6 = true then true else st.irqChangeRequested
        resetDelay := if x.getLsbD 7 = true then st.resetDelay else .pending 2 } := by
  unfold BlockState.frameWritten BlockState.writeFrameCounter modeField inhibitField
  cases x.getLsbD 6 <;> cases x.getLsbD 7 <;> rfl

/-- Settles O23: bit 7 decides between the immediate events and the arming. -/
theorem frameCounterWrite : Obligations.FrameCounterWrite := by
  unfold Obligations.FrameCounterWrite
  intro x s st
  have hst : s.st.frameWritten x = st := frameWritten_eq x s.st
  refine ⟨isWord_write .framecnt x, ?_⟩
  rw [← hst, Answers, exec, execWrFramecnt, modeField, BlockState.frameWritten]
  cases x.getLsbD 7 with
  | false => rfl
  | true =>
    rw [← foldl_quarterFrameCalls, ← foldl_halfFrameCalls]
    rfl

end Sys2Proof.Proofs
end

section
/-! PROOFS. The register reads (spec/41_register_reads.md R130, R131): the operation word of each, the byte of a status
read, and the state after it. -/

namespace Sys2Proof.Proofs

open Sys2Proof.Machine Sys2Proof.Claims

/-- The word of a read: kind 00, the address of the register, `D` = 0 (R75-R77). -/
theorem isWord_read (r : Reg) : IsWord (r.addr.toNat * 256) r.read := by
  rw [IsWord, decode_eq_ok_iff, encode_read, Opw.toNat_make]
  simp

/-! The status read (R130) -/

/-- The state after a status read: the flag clear, the latch set, the byte returned, no call made (R130). -/
def afterStatusRead (s : State) : State :=
  { s with
    st := { s.st with frameInterruptFlag := false, irqChangeRequested := true }, trace := [],
    result := .byte s.statusRead }

theorem answers_rdStatus {s : State} (h : s.collab.CountersSmall) : Answers .rdStatus s (afterStatusRead s) :=
  if_pos ((Collab.countersInContract_iff _).mpr h)

theorem active_iff (l : LengthCounter) : l.active = true ↔ l.counter ≠ 0 := bne_iff_ne

theorem remainingMoreThan0_iff (d : Dmc) : d.remainingMoreThan0 = true ↔ 0 < d.reader.remainingBytes :=
  decide_eq_true_iff

/-- The byte of a status read has the bits of R93. -/
theorem statusBits_statusRead (s : State) : statusBits s s.statusRead := by
  obtain ⟨h7, h6, h5, h4, -⟩ := statusByte_bits s.collab.d.reader.irqFlag s.st.frameInterruptFlag
    s.collab.d.remainingMoreThan0 s.collab.n.lc.active s.collab.t.lc.active s.collab.p2.lc.active
    s.collab.p1.lc.active
  have hslot (i : LcId) : s.statusRead.getLsbD (statusBit i) = true ↔ (s.collab.lc i).counter ≠ 0 := by
    rw [statusRead_getLsbD, active_iff]
  refine ⟨h7, h6, h5, ?_, hslot .n, hslot .t, hslot .p2, hslot .p1⟩
  rw [State.statusRead, h4, remainingMoreThan0_iff]

/-- Settles O24: the byte is `statusRead` of the state before the read, and the state after it is `afterStatusRead`. -/
theorem statusRead : Obligations.StatusRead := by
  unfold Obligations.StatusRead
  exact ⟨isWord_read .status, fun s h => ⟨s.statusRead, statusBits_statusRead s, answers_rdStatus h⟩⟩

/-- A read sees of the read before it that the flag is clear, and nothing else (R65). -/
theorem statusRead_afterStatusRead (s : State) : (afterStatusRead s).statusRead = s.statusRead &&& 0xBF#8 :=
  statusByte_flag_clear ..

/-- Settles O26: the first read leaves the counters, so the second completes as well. -/
theorem secondStatusReadShowsFlagClear : Obligations.SecondStatusReadShowsFlagClear := by
  unfold Obligations.SecondStatusReadShowsFlagClear
  intro s h
  have hsecond : (afterStatusRead s).collab.CountersSmall := h
  exact ⟨afterStatusRead s, afterStatusRead (afterStatusRead s), s.statusRead, answers_rdStatus h,
    answers_rdStatus hsecond, rfl, congrArg Result.byte (statusRead_afterStatusRead s), rfl⟩

/-! The reads of the write-only registers (R131) -/

/-- The listed reads are those of the registers other than STATUS. -/
theorem mem_writeOnlyReads_iff (i : Instr) : i ∈ writeOnlyReads ↔ ∃ r : Reg, r ≠ .status ∧ r.read = i := by
  have hlist : writeOnlyReads = (Reg.all.filter (· ≠ .status)).map Reg.read := rfl
  have hall (r : Reg) : r ∈ Reg.all := by cases r <;> decide
  simp [hlist, hall]

theorem answers_read_of_ne_status {r : Reg} (hr : r ≠ .status) (s : State) :
    Answers r.read s (after s [] (.byte 0) s.collab) := by
  cases r with
  | status => exact absurd rfl hr
  | _ => rfl

/-- Settles O27: the 21 reads are the reads of the registers other than STATUS. -/
theorem writeOnlyReadsReturnZero : Obligations.WriteOnlyReadsReturnZero := by
  unfold Obligations.WriteOnlyReadsReturnZero
  constructor
  · intro i s hi
    obtain ⟨r, hr, rfl⟩ := (mem_writeOnlyReads_iff i).mp hi
    exact answers_read_of_ne_status hr s
  · intro r hr
    exact ⟨isWord_read r, (mem_writeOnlyReads_iff _).mpr ⟨r, hr, rfl⟩⟩

end Sys2Proof.Proofs
end

section
/-! PROOFS. What one CLOCK does, case by case: the calls it makes and what they make of the collaborators
(spec/42_frame_sequencer.md R140-R148). -/

namespace Sys2Proof.Proofs

open Sys2Proof.Machine Sys2Proof.Claims

/-! The calls of a CLOCK on the collaborators -/

/-- The timer calls clock the five timers (R140). -/
theorem foldl_timerClockCalls (c : Collab) :
    timerClockCalls.foldl (fun c k => c.perform k) c = timersClocked c := rfl

/-- The calls of both frame events fire the quarter-frame and then the half-frame event (R146, R147). -/
theorem foldl_frameEventCalls (c : Collab) :
    (quarterFrameCalls ++ halfFrameCalls).foldl (fun c k => c.perform k) c = halfFired (quarterFired c) := by
  rw [List.foldl_append, foldl_quarterFrameCalls, foldl_halfFrameCalls]

/-- A CLOCK answers by its block state, its calls after the timer calls, and what these make of the clocked timers. -/
theorem answers_clk {s : State} {st : BlockState} {ks : List Call} {c : Collab} (hst : s.st.clocked = st)
    (hcalls : s.st.clockCalls = timerClockCalls ++ ks)
    (hcollab : ks.foldl (fun c k => c.perform k) (timersClocked s.collab) = c) :
    Answers .clk s
      { st := st, collab := c, trace := timerCalls ++ ks, result := .nothing, schedule := s.schedule } := by
  rw [Answers, exec, execClk_eq, hst, hcalls, List.foldl_append, foldl_timerClockCalls, hcollab]
  rfl

/-! A CLOCK on which no delayed reset fires -/

/-- The block state the event check of a CLOCK finds when no delayed reset fires: the count one up, the delay advanced
(R141, R142). -/
def counted (st : BlockState) : BlockState :=
  { st with cycle := st.cycle + 1, resetDelay := delayAdvanced st.resetDelay }

theorem delayed_setCycle_eq_counted {st : BlockState} (h : st.resetDelay ≠ .pending 0) :
    st.delayed.setCycle (st.delayed.cycle + 1) = counted st := by
  unfold counted BlockState.delayed
  split
  case h_1 hd => rw [hd]; cases st; cases hd; rfl
  case h_2 hd => exact absurd hd h
  case h_3 hd => rw [hd]; rfl
  case h_4 hd => rw [hd]; rfl

/-- When no delayed reset fires, a CLOCK is the event check on the counted state (R143). -/
theorem answers_clk_of_not_firing {s : State} {st : BlockState} {ks : List Call} {c : Collab}
    (h : s.st.resetDelay ≠ .pending 0) (hst : (counted s.st).checked = st) (hcalls : (counted s.st).eventCalls = ks)
    (hcollab : ks.foldl (fun c k => c.perform k) (timersClocked s.collab) = c) :
    Answers .clk s
      { st := st, collab := c, trace := timerCalls ++ ks, result := .nothing, schedule := s.schedule } := by
  refine answers_clk ?_ ?_ hcollab
  · rw [BlockState.clocked, delayed_setCycle_eq_counted h, hst]
  · rw [BlockState.clockCalls, delayed_setCycle_eq_counted h, hcalls, BlockState.delayCalls, if_neg fun hf => h hf.1,
      List.append_nil]

/-- At a count that is neither terminal count the event check changes no block state, whatever the mode. -/
theorem checked_of_ne_terminals {st : BlockState} (h4 : st.cycle ≠ Config.t4) (h5 : st.cycle ≠ Config.t5) :
    st.checked = st :=
  BlockState.checked_other (fun h => h4 h.2) (fun h => h5 h.2)

/-- The frame interrupt, field by field (R144). -/
theorem frameIrq_eq (st : BlockState) :
    st.frameIrq = { st with
      frameInterruptFlag := if st.interruptInhibit = true then st.frameInterruptFlag else true
      irqChangeRequested := if st.interruptInhibit = true then st.irqChangeRequested else true } := by
  unfold BlockState.frameIrq
  split <;> rfl

/-- Settles O28: the event check finds no event count. -/
theorem clockWithoutEvent : Obligations.ClockWithoutEvent := by
  unfold Obligations.ClockWithoutEvent
  intro s hdelay h1 h2 h3 h4 h5
  exact answers_clk_of_not_firing hdelay (BlockState.checked_other h4 h5)
    (BlockState.eventCalls_none h1 h2 h3 h4 h5) rfl

/-- Settles O29: Q1, Q2 and Q3 are terminal counts of neither mode. -/
theorem clockAtFrameCounts : Obligations.ClockAtFrameCounts := by
  unfold Obligations.ClockAtFrameCounts
  intro s hdelay
  constructor
  · intro hc
    have hquiet : (counted s.st).checked = counted s.st := by
      rcases hc with hc | hc <;> exact checked_of_ne_terminals (hc.trans_ne (by decide)) (hc.trans_ne (by decide))
    exact answers_clk_of_not_firing hdelay hquiet (BlockState.eventCalls_quarter hc) (foldl_quarterFrameCalls _)
  · intro hc
    exact answers_clk_of_not_firing hdelay
      (checked_of_ne_terminals (hc.trans_ne (by decide)) (hc.trans_ne (by decide))) (BlockState.eventCalls_half hc)
      (foldl_frameEventCalls _)

/-- Settles O30: the event check raises the frame interrupt and puts the count to 0. -/
theorem clockAtFourStepTerminal : Obligations.ClockAtFourStepTerminal := by
  unfold Obligations.ClockAtFourStepTerminal
  intro s hdelay hm hc
  refine answers_clk_of_not_firing hdelay ?_ (BlockState.eventCalls_fourStep hm hc) (foldl_frameEventCalls _)
  rw [BlockState.checked_fourStep (st := counted s.st) hm hc, frameIrq_eq]
  rfl

/-- Settles O31: the event check puts the count to 0 and raises no interrupt. -/
theorem clockAtFiveStepTerminal : Obligations.ClockAtFiveStepTerminal := by
  unfold Obligations.ClockAtFiveStepTerminal
  intro s hdelay hm hc
  exact answers_clk_of_not_firing hdelay (BlockState.checked_fiveStep hm hc) (BlockState.eventCalls_fiveStep hm hc)
    (foldl_frameEventCalls _)

/-! The CLOCK that fires the delayed reset (R142) -/

/-- The block state after the delayed reset fires: the count, put to 0 and incremented, is 1. -/
def fired (st : BlockState) : BlockState := { st with cycle := 1, resetDelay := .idle }

theorem delayed_setCycle_eq_fired {st : BlockState} (h : st.resetDelay = .pending 0) :
    st.delayed.setCycle (st.delayed.cycle + 1) = fired st := by
  rw [BlockState.delayed, h]
  rfl

theorem eventCalls_of_cycle_one {st : BlockState} (h : st.cycle = 1) : st.eventCalls = [] :=
  BlockState.eventCalls_none (h.trans_ne (by decide)) (h.trans_ne (by decide)) (h.trans_ne (by decide))
    (fun h4 => h.trans_ne (by decide) h4.2) (fun h5 => h.trans_ne (by decide) h5.2)

theorem clocked_of_pending_zero {st : BlockState} (h : st.resetDelay = .pending 0) : st.clocked = fired st := by
  have h1 : (fired st).cycle = 1 := rfl
  rw [BlockState.clocked, delayed_setCycle_eq_fired h]
  exact checked_of_ne_terminals (h1.trans_ne (by decide)) (h1.trans_ne (by decide))

/-- The CLOCK that fires the delayed reset makes the calls of the reset alone: its count of 1 is no event count. -/
theorem clockCalls_of_pending_zero {st : BlockState} (h : st.resetDelay = .pending 0) :
    st.clockCalls = timerClockCalls ++ st.delayCalls := by
  have hnone : (fired st).eventCalls = [] := eventCalls_of_cycle_one rfl
  rw [BlockState.clockCalls, delayed_setCycle_eq_fired h, hnone, List.append_nil]

/-- Settles O32: the calls of the reset are those of both frame events exactly in five-step mode. -/
theorem clockFiresDelayedReset : Obligations.ClockFiresDelayedReset := by
  unfold Obligations.ClockFiresDelayedReset
  intro s h
  have hst := clocked_of_pending_zero h
  have hcalls := clockCalls_of_pending_zero h
  cases hm : s.st.mode with
  | fourStep =>
    rw [BlockState.delayCalls, if_neg (by simp [hm])] at hcalls
    exact answers_clk hst hcalls rfl
  | fiveStep =>
    rw [BlockState.delayCalls, if_pos ⟨h, hm⟩] at hcalls
    exact answers_clk hst hcalls (foldl_frameEventCalls _)

end Sys2Proof.Proofs
end

section
/-! PROOFS. Runs of CLOCKs: the block state after them is `clocked` iterated, so the claims about such runs are claims
about the block state alone (spec/42_frame_sequencer.md R142-R145). -/

namespace Sys2Proof.Proofs

open Sys2Proof.Machine Sys2Proof.Claims

/-- Any number of CLOCKs completes. -/
theorem execAll_replicate_clk (n : Nat) (s : State) :
    ∃ t, execAll (List.replicate n .clk) s = .next t ∧ t.st = BlockState.clocked^[n] s.st := by
  induction n generalizing s with
  | zero => exact ⟨s, rfl, rfl⟩
  | succ n ih =>
    obtain ⟨t, hrun, ht⟩ := ih _
    exact ⟨t, (execAll_cons_of_next (i := .clk) (execClk_eq s) _).trans hrun, ht⟩

/-! Inhibited or in five-step mode (R144) -/

/-- Inhibited or in five-step mode, no number of CLOCKs changes the flag or the latch. -/
theorem iterate_clocked_keeps_flag_and_latch (n : Nat) {st : BlockState}
    (h : st.interruptInhibit = true ∨ st.mode = .fiveStep) :
    (BlockState.clocked^[n] st).frameInterruptFlag = st.frameInterruptFlag ∧
      (BlockState.clocked^[n] st).irqChangeRequested = st.irqChangeRequested := by
  induction n generalizing st with
  | zero => exact ⟨rfl, rfl⟩
  | succ n ih =>
    obtain ⟨hflag, hlatch⟩ := ih (st := st.clocked) (by simpa using h)
    rcases clocked_flag_cases st with ⟨hf, hl⟩ | ⟨hm, hi, -⟩
    · exact ⟨hflag.trans hf, hlatch.trans hl⟩
    · simp [hm, hi] at h

/-- Settles O37: CLOCK raises the flag only uninhibited in four-step mode. -/
theorem inhibitedOrFiveStepClocksRaiseNothing : Obligations.InhibitedOrFiveStepClocksRaiseNothing := by
  unfold Obligations.InhibitedOrFiveStepClocksRaiseNothing
  intro n s h
  obtain ⟨t, hrun, ht⟩ := execAll_replicate_clk n s
  exact ⟨t, hrun, ht ▸ iterate_clocked_keeps_flag_and_latch n h⟩

/-! The schedule of a mode with no reset pending (R143, R145) -/

theorem setCycle_eq_self {st : BlockState} {c : BitVec 16} (h : st.cycle = c) : st.setCycle c = st := by
  subst h
  rfl

theorem delayed_of_idle {st : BlockState} (h : st.resetDelay = .idle) : st.delayed = st := by
  rw [BlockState.delayed, h]

/-- With no reset pending, a CLOCK that does not reach the mode's terminal count only counts. -/
theorem clocked_of_idle {st : BlockState} (hidle : st.resetDelay = .idle)
    (hne : (st.cycle + 1).toNat ≠ st.mode.terminal) : st.clocked = st.setCycle (st.cycle + 1) := by
  rcases st.clocked_cases with ⟨hm, hc, -⟩ | ⟨hm, hc, -⟩ | ⟨-, -, h⟩
  · rw [delayed_of_idle hidle] at hc
    exact absurd (by rw [hc, hm]; rfl) hne
  · rw [delayed_of_idle hidle] at hc
    exact absurd (by rw [hc, hm]; rfl) hne
  · rw [h, delayed_of_idle hidle]

/-- In five-step mode with no reset pending, the CLOCK to the terminal count only puts the count to 0. -/
theorem clocked_of_idle_fiveStep_terminal {st : BlockState} (hidle : st.resetDelay = .idle)
    (hm : st.mode = .fiveStep) (hc : st.cycle + 1 = Config.t5) : st.clocked = st.setCycle 0 := by
  rw [BlockState.clocked, delayed_of_idle hidle]
  exact BlockState.checked_fiveStep hm hc

/-- From a count of 0 with no reset pending, CLOCKs fewer than the mode's terminal count only count. -/
theorem iterate_clocked_of_idle {st : BlockState} (hidle : st.resetDelay = .idle) (h0 : st.cycle = 0) {n : Nat}
    (hn : n < st.mode.terminal) : BlockState.clocked^[n] st = st.setCycle (BitVec.ofNat 16 n) := by
  induction n with
  | zero => exact (setCycle_eq_self h0).symm
  | succ n ih =>
    have hle := terminal_le st.mode
    have hcount : BitVec.ofNat 16 n + 1 = BitVec.ofNat 16 (n + 1) := (BitVec.ofNat_add n 1).symm
    have hne : (BitVec.ofNat 16 n + 1).toNat ≠ st.mode.terminal := by
      rw [hcount, BitVec.toNat_ofNat]
      omega
    rw [Function.iterate_succ_apply', ih (by omega), ← hcount]
    exact clocked_of_idle (st := st.setCycle (BitVec.ofNat 16 n)) hidle hne

/-- Settles O36: 18640 CLOCKs count to 18640, and the next one puts the count back to 0. -/
theorem fiveStepScheduleRepeats : Obligations.FiveStepScheduleRepeats := by
  unfold Obligations.FiveStepScheduleRepeats
  intro s h0 hm hidle
  have hcounts {n : Nat} (hn : n < 18641) :
      BlockState.clocked^[n] s.st = s.st.setCycle (BitVec.ofNat 16 n) :=
    iterate_clocked_of_idle hidle h0 (by rwa [hm])
  constructor
  · intro n hn
    obtain ⟨t, hrun, ht⟩ := execAll_replicate_clk n s
    exact ⟨t, hrun, ht.trans (hcounts hn)⟩
  · obtain ⟨t, hrun, ht⟩ := execAll_replicate_clk 18641 s
    refine ⟨t, hrun, ht.trans ?_⟩
    calc BlockState.clocked^[18640 + 1] s.st
        = (s.st.setCycle 18640#16).clocked := by rw [Function.iterate_succ_apply', hcounts (by decide)]
      _ = s.st.setCycle 0 := clocked_of_idle_fiveStep_terminal (st := s.st.setCycle 18640#16) hidle hm rfl
      _ = s.st := setCycle_eq_self h0

/-! A pending reset runs out (R142) -/

theorem clocked_delay_of_not_firing {st : BlockState} (h : st.resetDelay ≠ .pending 0) :
    st.clocked.resetDelay = delayAdvanced st.resetDelay := by
  rw [BlockState.clocked, delayed_setCycle_eq_counted h, BlockState.checked_delay]
  rfl

/-- `Pending(n)` fires on the `n + 1`th CLOCK. -/
theorem iterate_clocked_of_pending {st : BlockState} {n : Fin 3} (h : st.resetDelay = .pending n) :
    (BlockState.clocked^[n.val + 1] st).cycle = 1 ∧ (BlockState.clocked^[n.val + 1] st).resetDelay = .idle ∧
      (BlockState.clocked^[n.val + 1] st).mode = st.mode := by
  obtain ⟨n, hn⟩ := n
  induction n generalizing st with
  | zero =>
    have hfired := clocked_of_pending_zero h
    exact ⟨congrArg BlockState.cycle hfired, congrArg BlockState.resetDelay hfired, st.clocked_mode⟩
  | succ n ih =>
    have hnext : st.clocked.resetDelay = .pending ⟨n, by omega⟩ := by
      rw [clocked_delay_of_not_firing (by simp [h]), h]
      obtain rfl | rfl : n = 0 ∨ n = 1 := by omega
      · rfl
      · rfl
    obtain ⟨hcycle, hdelay, hmode⟩ := ih (by omega) hnext
    exact ⟨hcycle, hdelay, hmode.trans st.clocked_mode⟩

/-- Settles O33: a write without bit 7 leaves `Pending(2)` and four-step mode, whatever was pending. -/
theorem delayedResetFiresOnThirdClock : Obligations.DelayedResetFiresOnThirdClock := by
  unfold Obligations.DelayedResetFiresOnThirdClock
  intro x s h7
  obtain ⟨w, hwrite⟩ : ∃ w, exec (.wrFramecnt x) s = .next w := ⟨_, rfl⟩
  have hst : w.st = s.st.frameWritten x := exec_st hwrite
  have hpending : w.st.resetDelay = .pending 2 := by rw [hst, frameWritten_delay, h7]; rfl
  have hmode : w.st.mode = .fourStep := by rw [hst, frameWritten_mode, modeField, h7]; rfl
  obtain ⟨t, hrun, ht⟩ := execAll_replicate_clk 3 w
  obtain ⟨hcycle, hdelay, hkept⟩ := iterate_clocked_of_pending hpending
  exact ⟨t, (execAll_cons_of_next hwrite _).trans hrun, ht ▸ hcycle, ht ▸ hdelay, ht ▸ hkept.trans hmode⟩

end Sys2Proof.Proofs
end

section
/-! PROOFS. The arithmetic of the Mixer is correctly rounded (spec/43_mixer.md R162): one rounding is to the nearest
value of the format, ties to the even coefficient, and an addition and a division are one rounding of the exact
result. -/

namespace Sys2Proof.Proofs

open Sys2Proof.Machine Sys2Proof.Claims

/-! The formats' parameters, and exact values -/

theorem prec_eq (f : MixFormat) : f.prec = precision f := by cases f <;> rfl

theorem minExp_eq (f : MixFormat) : f.minExp = leastExp f := by cases f <;> rfl

theorem maxExp_eq (f : MixFormat) : f.maxExp = greatestExp f := by cases f <;> rfl

theorem precision_bounds (f : MixFormat) : 24 ≤ precision f ∧ precision f ≤ 53 := by cases f <;> decide

theorem leastExp_lt_greatestExp (f : MixFormat) : leastExp f < greatestExp f := by cases f <;> decide

/-- A full coefficient is twice the least one that is full. -/
theorem two_pow_precision (f : MixFormat) : (2 : Rat) ^ precision f = 2 * 2 ^ (precision f - 1) := by
  rw [← pow_succ']; congr 1; have := precision_bounds f; omega

theorem two_zpow_le {a b : Int} (h : a ≤ b) : (2 : Rat) ^ a ≤ 2 ^ b := zpow_le_zpow_right₀ (by norm_num) h

theorem two_zpow_add_one (q : Int) : (2 : Rat) ^ (q + 1) = 2 * 2 ^ q := by
  rw [zpow_add_one₀ (by norm_num), mul_comm]

theorem full_at_lower_exponent (f : MixFormat) (q : Int) :
    (2 : Rat) ^ precision f * 2 ^ (q - 1) = 2 ^ (precision f - 1) * 2 ^ q := by
  rw [two_pow_precision, ← sub_add_cancel q 1, two_zpow_add_one, add_sub_cancel_right]; ring

theorem signed_false (m : Nat) (e : Int) : signed false m e = m * 2 ^ e := by simp [signed]

theorem signed_true (m : Nat) (e : Int) : signed true m e = -(m * 2 ^ e) := by simp [signed]

theorem signed_zero (s : Bool) (e : Int) : signed s 0 e = 0 := by simp [signed]

theorem signed_eq_mul (s : Bool) (m : Nat) (e : Int) :
    signed s m e = (if s then -1 else 1) * (m * 2 ^ e) := mul_assoc _ _ _

theorem abs_signed (s : Bool) (m : Nat) (e : Int) : |signed s m e| = m * 2 ^ e := by
  have h : (0 : Rat) ≤ m * 2 ^ e := by positivity
  cases s
  · rw [signed_false, abs_of_nonneg h]
  · rw [signed_true, abs_neg, abs_of_nonneg h]

theorem signed_eq_zero_iff {s : Bool} {m : Nat} {e : Int} : signed s m e = 0 ↔ m = 0 := by
  have he : (2 : Rat) ^ e ≠ 0 := by positivity
  rw [← abs_eq_zero, abs_signed, mul_eq_zero_iff_right he, Nat.cast_eq_zero]

theorem toRat?_fin (s : Bool) (m : Nat) (e : Int) : (Fp.fin s m e).toRat? = some (signed s m e) := rfl

/-! The values of a format -/

/-- A coefficient may also be one past the greatest, short of the greatest exponent: it is half of it at the next. -/
theorem formatValue_signed {f : MixFormat} {m : Nat} {q : Int} (s : Bool) (hm : m ≤ 2 ^ precision f)
    (hlo : leastExp f ≤ q) (hhi : q ≤ greatestExp f) (hfull : m = 2 ^ precision f → q < greatestExp f) :
    FormatValue f (signed s m q) := by
  rcases hm.lt_or_eq with hlt | rfl
  · exact ⟨s, m, q, hlt, hlo, hhi, rfl⟩
  · have hp := precision_bounds f
    refine ⟨s, 2 ^ (precision f - 1), q + 1, Nat.pow_lt_pow_right (by norm_num) (by omega), by omega,
      by have := hfull rfl; omega, ?_⟩
    rw [signed, signed, two_zpow_add_one]
    push_cast
    rw [two_pow_precision]; ring

theorem formatValue_neg {f : MixFormat} {r : Rat} (h : FormatValue f r) : FormatValue f (-r) := by
  obtain ⟨s, m, e, hm, hlo, hhi, rfl⟩ := h
  refine ⟨!s, m, e, hm, hlo, hhi, ?_⟩
  cases s <;> simp [signed]

theorem formatValue_natCast (f : MixFormat) {n : Nat} (h : n < 2 ^ 24) : FormatValue f n := by
  refine ⟨false, n, 0, h.trans_le (Nat.pow_le_pow_right (by norm_num) (precision_bounds f).1), ?_, ?_, ?_⟩
  · cases f <;> decide
  · cases f <;> decide
  · simp [signed]

/-- Seen in units of any `2^q`, a value of the format is an integer or, where `q` is not the least exponent, below the
least full coefficient. -/
theorem formatValue_in_units {f : MixFormat} {r : Rat} (h : FormatValue f r) (q : Int) :
    (∃ k : Int, r = k * 2 ^ q) ∨ (leastExp f < q ∧ |r| < 2 ^ (precision f - 1) * 2 ^ q) := by
  obtain ⟨s, m, e, hm, hlo, -, rfl⟩ := h
  rcases le_or_gt q e with hq | hq
  · left
    refine ⟨coefAt s m e q, ?_⟩
    rw [coefAt_value s m hq, signed]
  · right
    refine ⟨by omega, ?_⟩
    have hm' : (m : Rat) < 2 ^ precision f := by exact_mod_cast hm
    calc |signed s m e| = m * 2 ^ e := abs_signed s m e
      _ < 2 ^ precision f * 2 ^ e := by gcongr
      _ ≤ 2 ^ precision f * 2 ^ (q - 1) := mul_le_mul_of_nonneg_left (two_zpow_le (by omega)) (by positivity)
      _ = 2 ^ (precision f - 1) * 2 ^ q := full_at_lower_exponent f q

/-- The greatest value of a format is a last place below where rounding goes to infinity. -/
theorem formatValue_le {f : MixFormat} {r : Rat} (h : FormatValue f r) :
    |r| ≤ (2 ^ precision f - 1) * 2 ^ greatestExp f := by
  obtain ⟨s, m, e, hm, -, hhi, rfl⟩ := h
  have hm' : (m : Rat) ≤ 2 ^ precision f - 1 := by
    have : (m : Rat) + 1 ≤ 2 ^ precision f := by exact_mod_cast hm
    linarith
  rw [abs_signed]
  gcongr
  · exact hm'.trans' (by positivity)
  · norm_num

theorem formatValue_lt_overflowBound {f : MixFormat} {r : Rat} (h : FormatValue f r) : |r| < overflowBound f := by
  refine (formatValue_le h).trans_lt ?_
  unfold overflowBound
  gcongr
  norm_num

/-! One rounding -/

/-- An integer other than the one within a half of `x` is at least a half away from `x`. -/
theorem half_le_abs_sub {x : Rat} {m : Nat} (hm : |x - m| ≤ 1 / 2) {k : Int} (hk : k ≠ m) : 1 / 2 ≤ |x - k| := by
  have h1 : (1 : Rat) ≤ |(m : Rat) - k| := by
    have : (1 : Int) ≤ |(m : Int) - k| := Int.one_le_abs (by omega)
    exact_mod_cast this
  have h2 := abs_sub_le (m : Rat) x k
  rw [abs_sub_comm (m : Rat) x] at h2
  linarith

/-- The integer nearest to `x`, ties to even, is in units of `2^q` the nearest value of the format, ties to even, where
`x` fills the coefficient or `q` is the least exponent. -/
theorem nearest_in_units {f : MixFormat} {x : Rat} {m : Nat} {q : Int}
    (hfull : q = leastExp f ∨ 2 ^ (precision f - 1) ≤ x) (hm : |x - m| ≤ 1 / 2)
    (heven : |x - m| = 1 / 2 → m % 2 = 0) {r : Rat} (hr : FormatValue f r) :
    r = m * 2 ^ q ∨ |x * 2 ^ q - m * 2 ^ q| < |x * 2 ^ q - r| ∨
      (|x * 2 ^ q - m * 2 ^ q| = |x * 2 ^ q - r| ∧ m % 2 = 0) := by
  have hq : (0 : Rat) < 2 ^ q := by positivity
  have hdist (y : Rat) : |x * 2 ^ q - y * 2 ^ q| = |x - y| * 2 ^ q := by rw [← sub_mul, abs_mul, abs_of_pos hq]
  rcases formatValue_in_units hr q with ⟨k, rfl⟩ | ⟨hlt, hsmall⟩
  · by_cases hk : k = m
    · left; rw [hk]; norm_cast
    · right
      rw [hdist, hdist]
      have hfar := half_le_abs_sub hm hk
      rcases (hm.trans hfar).lt_or_eq with h | h
      · left; gcongr
      · exact .inr ⟨by rw [h], heven (by linarith)⟩
  · right; left
    have hx : (2 : Rat) ^ (precision f - 1) ≤ x := hfull.resolve_left (by omega)
    have hnear : |x - m| ≤ x - 2 ^ (precision f - 1) := by
      by_cases hk : ((2 ^ (precision f - 1) : Nat) : Int) = m
      · have hk' : (m : Rat) = 2 ^ (precision f - 1) := by exact_mod_cast hk.symm
        rw [hk', abs_of_nonneg (by linarith)]
      · have hfar := half_le_abs_sub hm hk
        push_cast at hfar
        rw [abs_of_nonneg (by linarith)] at hfar
        exact hm.trans hfar
    calc |x * 2 ^ q - m * 2 ^ q| = |x - m| * 2 ^ q := hdist m
      _ ≤ (x - 2 ^ (precision f - 1)) * 2 ^ q := by gcongr
      _ < x * 2 ^ q - r := by rw [sub_mul]; linarith [le_abs_self r]
      _ ≤ |x * 2 ^ q - r| := le_abs_self _

theorem abs_sign_mul (neg : Bool) {v : Rat} (hv : 0 ≤ v) : |(if neg then -1 else 1) * v| = v := by
  cases neg <;> simp [abs_of_nonneg hv]

/-- Rounding with a sign is rounding the magnitude. -/
theorem nearest_fin_of_magnitude {f : MixFormat} {v : Rat} {m : Nat} {e : Int} (neg : Bool) (hv : 0 ≤ v)
    (hlt : v < overflowBound f) (hval : FormatValue f (signed neg m e)) (hlo : leastExp f ≤ e)
    (hm : m ≤ 2 ^ precision f) (hfull : e = leastExp f ∨ 2 ^ precision f ≤ 2 * m)
    (hnear : ∀ r, FormatValue f r → r = m * 2 ^ e ∨ |v - m * 2 ^ e| < |v - r| ∨
      (|v - m * 2 ^ e| = |v - r| ∧ m % 2 = 0)) :
    Nearest f ((if neg then -1 else 1) * v) neg (.fin neg m e) := by
  cases neg
  · simp only [Bool.false_eq_true, if_false, one_mul]
    exact ⟨rfl, by rwa [abs_of_nonneg hv], hval, hlo, hm, hfull, by rwa [signed_false]⟩
  · simp only [if_true, neg_mul, one_mul]
    refine ⟨rfl, by rwa [abs_neg, abs_of_nonneg hv], hval, hlo, hm, hfull, fun r hr => ?_⟩
    have hdist (y : Rat) : |-v - y| = |v - -y| := by rw [← abs_neg]; congr 1; ring
    rw [signed_true, hdist, hdist, neg_neg, ← neg_eq_iff_eq_neg]
    exact hnear (-r) (formatValue_neg hr)

theorem overflowBound_pos (f : MixFormat) : 0 < overflowBound f := by
  simpa using formatValue_lt_overflowBound (formatValue_natCast f (n := 0) (by norm_num))

section

variable {f : MixFormat} {x : Rat} {q : Int} {m : Nat}

/-- What rounding takes for an overflow is at or past the bound from which on IEEE 754 rounds to infinity. -/
theorem overflowBound_le_of_over (hfull : q = leastExp f ∨ (2 : Rat) ^ (precision f - 1) ≤ x) (hm : |x - m| ≤ 1 / 2)
    (hover : greatestExp f < q ∨ (q = greatestExp f ∧ 2 ^ precision f ≤ m)) : overflowBound f ≤ x * 2 ^ q := by
  have hxm := abs_le.1 hm
  rw [overflowBound]
  rcases hover with hover | ⟨rfl, hover⟩
  · have hx : (2 : Rat) ^ (precision f - 1) ≤ x :=
      hfull.resolve_left (by have := leastExp_lt_greatestExp f; omega)
    calc ((2 : Rat) ^ precision f - 1 / 2) * 2 ^ greatestExp f
        ≤ 2 ^ precision f * 2 ^ greatestExp f := by gcongr; linarith
      _ = 2 ^ (precision f - 1) * 2 ^ (greatestExp f + 1) := by
        rw [← full_at_lower_exponent, add_sub_cancel_right]
      _ ≤ 2 ^ (precision f - 1) * 2 ^ q := mul_le_mul_of_nonneg_left (two_zpow_le hover) (by positivity)
      _ ≤ x * 2 ^ q := by gcongr
  · have hm' : (2 : Rat) ^ precision f ≤ m := by exact_mod_cast hover
    gcongr
    linarith

/-- What rounding does not take for an overflow is below that bound: a tie there would go to an odd coefficient. -/
theorem lt_overflowBound_of_not_over (hlt : x < 2 ^ precision f) (hm : |x - m| ≤ 1 / 2)
    (heven : |x - m| = 1 / 2 → m % 2 = 0) (hhi : q ≤ greatestExp f)
    (hlast : q = greatestExp f → m < 2 ^ precision f) : x * 2 ^ q < overflowBound f := by
  have hxm := abs_le.1 hm
  rw [overflowBound]
  rcases hhi.lt_or_eq with hhi | rfl
  · have hone : (1 : Rat) ≤ 2 ^ (precision f - 1) := one_le_pow₀ (by norm_num)
    calc x * 2 ^ q < 2 ^ precision f * 2 ^ q := by gcongr
      _ ≤ 2 ^ precision f * 2 ^ (greatestExp f - 1) :=
        mul_le_mul_of_nonneg_left (two_zpow_le (by omega)) (by positivity)
      _ = 2 ^ (precision f - 1) * 2 ^ greatestExp f := full_at_lower_exponent f _
      _ ≤ (2 ^ precision f - 1 / 2) * 2 ^ greatestExp f := by gcongr; rw [two_pow_precision]; linarith
  · have hm1 : (m : Rat) + 1 ≤ 2 ^ precision f := by exact_mod_cast hlast rfl
    have hle : x ≤ 2 ^ precision f - 1 / 2 := by linarith
    refine mul_lt_mul_of_pos_right (lt_of_le_of_ne hle fun htie => ?_) (by positivity)
    have hmax : (m : Rat) + 1 = 2 ^ precision f := by linarith
    have hmax' : m + 1 = 2 ^ precision f := by exact_mod_cast hmax
    have hmeven := heven (by rw [show x - m = 1 / 2 by linarith]; norm_num)
    have hpeven : 2 ^ precision f % 2 = 0 := by cases f <;> decide
    omega

end

/-- R162: the quotient of two integers is rounded to the nearest value. -/
theorem round_nearest (f : MixFormat) (neg : Bool) (num : Nat) {den : Nat} (hd : 0 < den) :
    Nearest f ((if neg then -1 else 1) * (num / den)) neg (Fp.round f neg num den) := by
  rcases Nat.eq_zero_or_pos num with rfl | hn
  · rw [Fp.round, if_pos rfl, minExp_eq]
    refine nearest_fin_of_magnitude neg (by simp) (by simpa using overflowBound_pos f)
      (formatValue_signed neg (Nat.zero_le _) le_rfl (leastExp_lt_greatestExp f).le
        fun h => absurd h (by positivity)) le_rfl (Nat.zero_le _) (.inl rfl) fun r _ => ?_
    by_cases hr : r = 0
    · left; simpa using hr
    · right; left; simpa using hr
  · obtain ⟨q, m, hlo, hm, hfull, hfullx, hlt, ⟨hnear, heven⟩, hround⟩ := Fp.round_cases f neg hn hd
    rw [minExp_eq] at hlo hfull hfullx
    rw [maxExp_eq] at hround
    rw [prec_eq] at hm hfull hfullx hlt hround
    have hv : (0 : Rat) ≤ num / den := by positivity
    obtain ⟨x, hx⟩ : ∃ x : Rat, x = num / den / 2 ^ q := ⟨_, rfl⟩
    have hxv : (num / den : Rat) = x * 2 ^ q := by rw [hx, div_mul_cancel₀ _ (by positivity)]
    rw [← hx] at hfullx hlt hnear heven
    rw [hround]
    by_cases hover : greatestExp f < q ∨ (q = greatestExp f ∧ 2 ^ precision f ≤ m)
    · rw [if_pos hover]
      exact ⟨rfl, by rw [abs_sign_mul neg hv, hxv]; exact overflowBound_le_of_over hfullx hnear hover⟩
    · rw [if_neg hover]
      obtain ⟨hhi, hlast⟩ : q ≤ greatestExp f ∧ (q = greatestExp f → m < 2 ^ precision f) := by omega
      refine nearest_fin_of_magnitude neg hv (hxv ▸ lt_overflowBound_of_not_over hlt hnear heven hhi hlast)
        (formatValue_signed neg hm hlo hhi fun hmax => lt_of_le_of_ne hhi fun h => (hlast h).ne hmax) hlo hm
        (hfull.imp_right fun h => ?_) fun r hr => hxv ▸ nearest_in_units hfullx hnear heven hr
      have hpow : 2 ^ precision f = 2 * 2 ^ (precision f - 1) := by exact_mod_cast two_pow_precision f
      omega

theorem roundsToNearest (f : MixFormat) : RoundsToNearest f := by
  refine ⟨fun neg num den hd => round_nearest f neg num hd, fun num den hd => ?_⟩
  have hnear := round_nearest f false num hd
  rwa [if_neg Bool.false_ne_true, one_mul] at hnear

/-! Addition and division -/

/-- The exact value with the sign of a sum is the sum. -/
theorem sign_mul_abs (v : Rat) : (if decide (v < 0) then -1 else 1) * |v| = v := by
  by_cases h : v < 0
  · simp [h, abs_of_neg h]
  · simp [h, abs_of_nonneg (not_lt.1 h)]

theorem addsCorrectly (f : MixFormat) : AddsCorrectly f := by
  refine ⟨fun s m e s' m' e' => ?_, fun s s' m e => ⟨rfl, rfl⟩⟩
  rcases Fp.add_fin f (toRat?_fin s m e) (toRat?_fin s' m' e') with ⟨hzero, hadd⟩ | ⟨hne, c, k, hck, hadd⟩
  · exact ⟨fun _ => by rw [hadd, minExp_eq], fun h => absurd hzero h⟩
  · refine ⟨fun h => absurd h hne, fun _ => ?_⟩
    have hnear := round_nearest f (decide (signed s m e + signed s' m' e' < 0)) (scaleUp c k)
      (scaleUp_pos Nat.one_pos (-k))
    rwa [scaleUp_ratio_one, hck, sign_mul_abs, ← Fp.roundScaled, ← hadd] at hnear

theorem dividesCorrectly (f : MixFormat) : DividesCorrectly f := by
  intro s m e s' m' e'
  refine ⟨fun hm' => ?_, fun hm => by simp [Fp.div, hm], by simp [Fp.div], by rw [Fp.div, minExp_eq]⟩
  obtain ⟨num, den, hden, hratio, hdiv⟩ := Fp.div_fin f s m e s' m' e' hm'
  have hvalue : (if (s != s') = true then -1 else 1) * (num / den : Rat) = signed s m e / signed s' m' e' := by
    rw [hratio, signed_eq_mul, signed_eq_mul]
    cases s <;> cases s' <;> simp [neg_div, div_neg]
  rw [hdiv, ← hvalue]
  exact round_nearest f _ num hden

end Sys2Proof.Proofs
end

section
/-! PROOFS. The binary64 datum that carries an amplitude or a sample (notes/assumptions/10.md): it reads back as the
value it was made from, and the test for a format says whether its value is one of the format. -/

namespace Sys2Proof.Proofs

open Sys2Proof.Machine Sys2Proof.Claims

/-- Every value of either format is a value of binary64. -/
theorem formatValue_binary64 {f : MixFormat} {r : Rat} (h : FormatValue f r) : FormatValue .binary64 r := by
  obtain ⟨s, m, e, hm, hlo, hhi, rfl⟩ := h
  refine ⟨s, m, e, hm.trans_le (Nat.pow_le_pow_right (by norm_num) (precision_bounds f).2), ?_, ?_, rfl⟩
  · cases f
    · exact le_trans (by decide) hlo
    · exact hlo
  · cases f
    · exact hhi.trans (by decide)
    · exact hhi

/-- What is nearest to a value of the format is that value. -/
theorem eq_of_nearest_formatValue {f : MixFormat} {v : Rat} {neg : Bool} {x : Fp} (h : Nearest f v neg x)
    (hv : FormatValue f v) : ∃ m e, x = .fin neg m e ∧ signed neg m e = v := by
  cases x with
  | nan => exact h.elim
  | inf s => exact absurd (formatValue_lt_overflowBound hv) (not_lt.2 h.2)
  | fin s m e =>
    obtain ⟨rfl, -, -, -, -, -, hnear⟩ := h
    refine ⟨m, e, rfl, ?_⟩
    rcases hnear v hv with h | h | ⟨h, -⟩
    · exact h.symm
    · rw [sub_self, abs_zero] at h; exact absurd h (not_lt.2 (abs_nonneg _))
    · rw [sub_self, abs_zero, abs_eq_zero, sub_eq_zero] at h; exact h.symm

/-- A scaled integer whose value is one of the format is not changed by rounding. -/
theorem roundScaled_of_formatValue {f : MixFormat} {s : Bool} {m : Nat} {e : Int} (h : FormatValue f (signed s m e)) :
    ∃ m' e', Fp.roundScaled f s m e = .fin s m' e' ∧ signed s m' e' = signed s m e := by
  have hnear := round_nearest f s (scaleUp m e) (scaleUp_pos Nat.one_pos (-e))
  rw [scaleUp_ratio_one, ← signed_eq_mul] at hnear
  exact eq_of_nearest_formatValue hnear h

/-- The datum of a nonzero value put together from the coefficient and exponent that rounding gives it, as `Fp.pack`
does: the three cases are a subnormal, a coefficient one past the greatest, and a normal value. -/
theorem unpack_pack_of_roundScaled {s : Bool} {m m' : Nat} {e e' : Int} (hm : m ≠ 0)
    (hround : Fp.roundScaled .binary64 s m e = .fin s m' e') (hval : FormatValue .binary64 (signed s m' e'))
    (hlo : -1074 ≤ e') (hm' : m' ≤ 2 ^ 53) (hfull : e' = -1074 ∨ 2 ^ 53 ≤ 2 * m') :
    ∃ m'' e'', Fp.unpack (Fp.pack (.fin s m e)) = .fin s m'' e'' ∧ signed s m'' e'' = signed s m' e' := by
  have hmax : (m' : Rat) * 2 ^ e' < 2 ^ 53 * 2 ^ (971 : Int) := by
    have h := formatValue_le hval
    rw [abs_signed] at h
    refine h.trans_lt ?_
    simp only [precision, greatestExp]
    gcongr
    norm_num
  simp only [Fp.pack, if_neg hm, hround]
  rcases lt_trichotomy m' (2 ^ 53) with hlt | heq | hgt
  · by_cases hsub : m' < 2 ^ 52
    · rw [if_pos hsub, Fp.unpack_packBits s (by norm_num) hsub]
      obtain rfl : e' = -1074 := by omega
      exact ⟨m', -1074, by simp, rfl⟩
    · have hexp : e' < 972 := by
        refine (zpow_lt_zpow_iff_right₀ (by norm_num : (1 : Rat) < 2)).1 ?_
        have h52 : (2 : Rat) ^ 52 ≤ m' := by exact_mod_cast not_lt.1 hsub
        have h1 : (2 : Rat) ^ 52 * 2 ^ e' < 2 ^ 52 * (2 * 2 ^ (971 : Int)) := by
          calc (2 : Rat) ^ 52 * 2 ^ e' ≤ m' * 2 ^ e' := by gcongr
            _ < 2 ^ 53 * 2 ^ (971 : Int) := hmax
            _ = 2 ^ 52 * (2 * 2 ^ (971 : Int)) := by ring
        rw [← two_zpow_add_one] at h1
        exact lt_of_mul_lt_mul_left h1 (by positivity)
      rw [if_neg hsub, if_neg hlt.ne, Fp.unpack_packBits s (by omega) (by omega), if_neg (by omega), if_neg (by omega)]
      refine ⟨m', e', ?_, rfl⟩
      rw [Nat.add_sub_cancel' (not_lt.1 hsub), show ((e' + 1075).toNat : Int) - 1075 = e' by omega]
  · have hcoef : (m' : Rat) = 2 ^ 53 := by exact_mod_cast heq
    rw [hcoef] at hmax
    have hexp : e' < 971 := (zpow_lt_zpow_iff_right₀ (by norm_num : (1 : Rat) < 2)).1
      (lt_of_mul_lt_mul_left hmax (by positivity))
    rw [if_neg (by omega), if_pos heq, Fp.unpack_packBits s (by omega) (by norm_num), if_neg (by omega),
      if_neg (by omega)]
    refine ⟨2 ^ 52, e' + 1, ?_, ?_⟩
    · congr 1; omega
    · rw [signed_eq_mul, signed_eq_mul, two_zpow_add_one, hcoef]; push_cast; ring
  · omega

/-- The datum of a value of a format reads back as it, with its sign. -/
theorem unpack_pack_fin {f : MixFormat} {s : Bool} {m : Nat} {e : Int} (h : FormatValue f (signed s m e)) :
    ∃ m' e', Fp.unpack (Fp.pack (.fin s m e)) = .fin s m' e' ∧ signed s m' e' = signed s m e := by
  by_cases hm : m = 0
  · subst hm
    refine ⟨0, -1074, ?_, by rw [signed_zero, signed_zero]⟩
    rw [Fp.pack, if_pos rfl, Fp.unpack_packBits s (by norm_num) (by norm_num)]
    simp
  · have hnear := round_nearest .binary64 s (scaleUp m e) (scaleUp_pos Nat.one_pos (-e))
    rw [scaleUp_ratio_one, ← signed_eq_mul, ← Fp.roundScaled] at hnear
    obtain ⟨m', e', hround, hvalue⟩ := roundScaled_of_formatValue (formatValue_binary64 h)
    rw [hround] at hnear
    obtain ⟨-, -, hval, hlo, hm', hfull, -⟩ := hnear
    rw [← hvalue]
    exact unpack_pack_of_roundScaled hm hround hval hlo hm' hfull

theorem unpack_pack_inf (s : Bool) : Fp.unpack (Fp.pack (.inf s)) = .inf s := by
  rw [Fp.pack, Fp.unpack_packBits s (by norm_num) (by norm_num)]
  simp

/-- Every finite datum is a value of binary64. -/
theorem formatValue_of_unpack {a : Amp} {s : Bool} {m : Nat} {e : Int} (h : Fp.unpack a = .fin s m e) :
    FormatValue .binary64 (signed s m e) := by
  have hex : (a.extractLsb' 52 11).toNat < 2 ^ 11 := BitVec.isLt _
  have hfrac : (a.extractLsb' 0 52).toNat < 2 ^ 52 := BitVec.isLt _
  unfold Fp.unpack at h
  simp only [] at h
  split at h
  · split at h <;> cases h
  · split at h
    · cases h
      exact ⟨_, _, _, hfrac.trans (by decide), le_rfl, by decide, rfl⟩
    · cases h
      refine ⟨_, _, _, ?_, ?_, ?_, rfl⟩ <;> simp only [precision, leastExp, greatestExp] <;> omega

/-- A finite datum passes the test for binary32 exactly when its value is one of binary32: rounded to it, it gives the
same datum. -/
theorem isBinary32_iff {s : Bool} {m : Nat} {e : Int} (h : FormatValue .binary64 (signed s m e)) :
    (Fp.fin s m e).isBinary32 = true ↔ FormatValue .binary32 (signed s m e) := by
  rw [Fp.isBinary32, beq_iff_eq]
  obtain ⟨m1, e1, hread, hvalue⟩ := unpack_pack_fin h
  constructor
  · intro hsame
    have hnear := round_nearest .binary32 s (scaleUp m e) (scaleUp_pos Nat.one_pos (-e))
    rw [← Fp.roundScaled] at hnear
    rw [← hsame] at hread
    generalize Fp.roundScaled .binary32 s m e = x at hnear hread
    cases x with
    | nan => exact hnear.elim
    | inf s' => rw [unpack_pack_inf] at hread; cases hread
    | fin s' m' e' =>
      obtain ⟨rfl, -, hval, -⟩ := hnear
      obtain ⟨m2, e2, hread', hvalue'⟩ := unpack_pack_fin hval
      rw [hread'] at hread
      cases hread
      rwa [← hvalue, hvalue']
  · intro h32
    obtain ⟨m', e', hround, hvalue'⟩ := roundScaled_of_formatValue h32
    rw [hround]
    refine Fp.pack_congr s ?_
    rw [← abs_signed s m' e', hvalue', abs_signed]

/-- A finite datum passes the test for a format exactly when its value is one of the format. -/
theorem isOf_iff {a : Amp} {s : Bool} {m : Nat} {e : Int} (h : Fp.unpack a = .fin s m e) (f : MixFormat) :
    (Fp.unpack a).isOf f = true ↔ FormatValue f (signed s m e) := by
  have h64 := formatValue_of_unpack h
  rw [h]
  cases f with
  | binary32 => simpa [Fp.isOf] using isBinary32_iff h64
  | binary64 => simp [Fp.isOf, h64]

theorem carriesExactly (f : MixFormat) : CarriesExactly f :=
  ⟨fun _ _ _ h => unpack_pack_fin h, unpack_pack_inf, fun _ _ _ _ h => isOf_iff h f⟩

end Sys2Proof.Proofs
end

section
/-! PROOFS. MIX and what it reads (spec/43_mixer.md R160, R164): when it completes and with what, when it refuses, and
which steps change the answers it reads. -/

namespace Sys2Proof.Proofs

open Sys2Proof.Machine Sys2Proof.Claims

/-! The contract (R164) -/

/-- Five inputs are in contract when they are finite, with exact values in their ranges. -/
theorem inContract_iff (x1 x2 x3 x4 x5 : Fp) :
    Machine.inContract x1 x2 x3 x4 x5 = true ↔ ∃ p1 p2 t n d, InputValues x1 x2 x3 x4 x5 p1 p2 t n d := by
  simp only [Machine.inContract, Bool.and_eq_true, Fp.inRange_iff]
  push_cast
  constructor
  · rintro ⟨⟨⟨⟨⟨p1, h1, r1⟩, p2, h2, r2⟩, t, h3, r3⟩, n, h4, r4⟩, d, h5, r5⟩
    exact ⟨p1, p2, t, n, d, h1, h2, h3, h4, h5, r1, r2, r3, r4, r5⟩
  · rintro ⟨p1, p2, t, n, d, h1, h2, h3, h4, h5, r1, r2, r3, r4, r5⟩
    exact ⟨⟨⟨⟨⟨p1, h1, r1⟩, p2, h2, r2⟩, t, h3, r3⟩, n, h4, r4⟩, d, h5, r5⟩

theorem outputs_inContract_iff (o : Outputs) : o.inContract = true ↔ ∃ p1 p2 t n d, HaveValues o p1 p2 t n d :=
  inContract_iff ..

theorem amplitudesIn_iff_haveValues (o : Outputs) : amplitudesIn o ↔ ∃ p1 p2 t n d, HaveValues o p1 p2 t n d := by
  constructor
  · rintro ⟨⟨p1, h1, r1⟩, ⟨p2, h2, r2⟩, ⟨t, h3, r3⟩, ⟨n, h4, r4⟩, d, h5, r5⟩
    exact ⟨p1, p2, t, n, d, h1, h2, h3, h4, h5, r1, r2, r3, r4, r5⟩
  · rintro ⟨p1, p2, t, n, d, h1, h2, h3, h4, h5, r1, r2, r3, r4, r5⟩
    exact ⟨⟨p1, h1, r1⟩, ⟨p2, h2, r2⟩, ⟨t, h3, r3⟩, ⟨n, h4, r4⟩, d, h5, r5⟩

/-! The two outcomes of MIX (R160, R164) -/

/-- The state after a MIX that completes: no call made, the sample returned, nothing else changed. -/
def afterMix (s : State) : State :=
  after s [] (.sample (s.collab.outputs.mixed Config.mixFormat)) s.collab

theorem answers_mix {s : State} (h : s.collab.outputs.inContract = true) : Answers .mix s (afterMix s) := if_pos h

theorem exec_mix_of_not_inContract {s : State} (h : ¬ s.collab.outputs.inContract = true) :
    exec .mix s = .refused .amplitudeOutOfContract := if_neg h

/-- Settles O44: the contract over the exact values is the test that MIX makes. -/
theorem mixRefusesOutOfContract : Obligations.MixRefusesOutOfContract := by
  unfold Obligations.MixRefusesOutOfContract
  intro s
  rw [amplitudesIn_iff_haveValues, ← outputs_inContract_iff]
  refine ⟨exec_mix_of_not_inContract, fun h hrefused => ?_⟩
  rw [answers_mix h] at hrefused
  cases hrefused

/-! What changes the answers MIX reads (R31, R160) -/

/-- An operation leaves the answers current: it changes the collaborators by its calls alone. -/
theorem exec_outputsCurrent {i : Instr} {s t : State} (h : s.collab.OutputsCurrent) (he : exec i s = .next t) :
    t.collab.OutputsCurrent := by
  rw [(exec_madeFrom he).collab_eq]
  exact h.foldl t.trace

/-- The DMC's environment step renews the DMC's answer and touches no other channel. -/
theorem dmcActivity_outputsCurrent {s : State} (h : s.collab.OutputsCurrent) (r : DmcReader) :
    (s.dmcActivity r).collab.OutputsCurrent := by
  obtain ⟨h1, h2, h3, h4, -⟩ := h
  exact ⟨h1, h2, h3, h4, rfl⟩

theorem step_outputsCurrent {s t : State} (h : s.collab.OutputsCurrent) (hs : step s = .next t) :
    t.collab.OutputsCurrent := by
  rcases step_cases hs with ⟨-, rfl⟩ | ⟨r, rest, -, rfl⟩ | ⟨i, e, rest, -, he⟩
  · exact h
  · exact dmcActivity_outputsCurrent (s := { s with schedule := rest }) h r
  · exact exec_outputsCurrent (s := { s with schedule := rest }) h he

/-- A read makes no call. -/
theorem exec_read_collab {r : Reg} {s t : State} (h : exec r.read s = .next t) : t.collab = s.collab := by
  by_cases hr : r = .status
  · subst hr
    simp only [Reg.read, exec, execRdStatus] at h
    split at h
    · cases h; rfl
    · cases h
  · rw [answers_read_of_ne_status hr s] at h
    cases h; rfl

/-- An operation that is no CLOCK and no write leaves the answers: it makes no call, or CLRQ's. -/
theorem exec_outputs {i : Instr} {s t : State} (hclk : i ≠ .clk) (hwrite : ∀ (r : Reg) (x : Byte), i ≠ r.write x)
    (h : exec i s = .next t) : t.collab.outputs = s.collab.outputs := by
  cases i using instr_cases with
  | write r d => exact absurd rfl (hwrite r d)
  | read r => rw [exec_read_collab h]
  | clk => exact absurd rfl hclk
  | clrq | iscr | pin => cases h; rfl
  | mix =>
    by_cases hin : s.collab.outputs.inContract = true
    · rw [answers_mix hin] at h
      cases h; rfl
    · rw [exec_mix_of_not_inContract hin] at h
      cases h

/-- Settles O60: the answers stay current over each kind of step, and MIX reads nothing but the answers. -/
theorem stepsKeepTheOutputsCurrent : Obligations.StepsKeepTheOutputsCurrent := by
  unfold Obligations.StepsKeepTheOutputsCurrent
  refine ⟨fun s t h hs => step_outputsCurrent h hs, fun i s t u hclk hwrite hi hmix => ?_⟩
  have hkept := exec_outputs hclk hwrite hi
  have hin : s.collab.outputs.inContract = true := by
    by_contra hout
    rw [Answers, exec_mix_of_not_inContract hout] at hmix
    cases hmix
  have hin' : t.collab.outputs.inContract = true := by rwa [hkept]
  refine ⟨afterMix t, answers_mix hin', ?_⟩
  calc (afterMix t).result = .sample (t.collab.outputs.mixed Config.mixFormat) := rfl
    _ = returned .mix s := by rw [hkept]; rfl
    _ = u.result := (exec_madeFrom hmix).result_eq.symm

end Sys2Proof.Proofs
end

section
/-! PROOFS. The Mixer over the rationals (spec/43_mixer.md R161, R165): each of its two outputs is one saturating
function of a weighted sum of its inputs, so it grows with each of them and is greatest where all are. -/

namespace Sys2Proof.Proofs

open Sys2Proof.Machine Sys2Proof.Claims

/-- The function `1 / (1/x + 100)` of both outputs, with the value 0 at 0 that the guards give it. -/
def saturating (x : Rat) : Rat := x / (1 + 100 * x)

theorem saturating_nonneg {x : Rat} (hx : 0 ≤ x) : 0 ≤ saturating x := by unfold saturating; positivity

theorem saturating_le {x : Rat} (hx : 0 ≤ x) : saturating x ≤ 1 / 100 := by
  unfold saturating
  rw [div_le_div_iff₀ (by linarith) (by norm_num)]
  linarith

theorem saturating_mono {x y : Rat} (hx : 0 ≤ x) (hxy : x ≤ y) : saturating x ≤ saturating y := by
  unfold saturating
  rw [div_le_div_iff₀ (by linarith) (by linarith)]
  linarith

/-- The quotient as R161 writes it, for a sum that is not 0. -/
theorem div_eq_mul_saturating {c k s : Rat} (hk : 0 < k) (hs : 0 < s) :
    c / (k / s + 100) = c * saturating (s / k) := by
  unfold saturating
  field_simp

theorem pulseOutExact_eq {p1 p2 : Rat} (h1 : 0 ≤ p1) (h2 : 0 ≤ p2) :
    pulseOutExact p1 p2 = 9588 / 100 * saturating ((p1 + p2) / 8128) := by
  unfold pulseOutExact
  split
  · rename_i h; simp [h.1, h.2, saturating]
  · rename_i h
    have hne : p1 + p2 ≠ 0 := fun h0 => h ((add_eq_zero_iff_of_nonneg h1 h2).1 h0)
    exact div_eq_mul_saturating (by norm_num) (by positivity)

theorem tndOutExact_eq {t n d : Rat} (ht : 0 ≤ t) (hn : 0 ≤ n) (hd : 0 ≤ d) :
    tndOutExact t n d = 15979 / 100 * saturating (t / 8227 + n / 12241 + d / 22638) := by
  unfold tndOutExact
  split
  · rename_i h; obtain ⟨rfl, rfl, rfl⟩ := h; simp [saturating]
  · rename_i h
    have hpos : 0 < t / 8227 + n / 12241 + d / 22638 := by
      rcases ht.lt_or_eq with ht | rfl
      · positivity
      rcases hn.lt_or_eq with hn | rfl
      · positivity
      rcases hd.lt_or_eq with hd | rfl
      · positivity
      · exact absurd ⟨rfl, rfl, rfl⟩ h
    simpa using div_eq_mul_saturating (c := 15979 / 100) one_pos hpos

theorem pulseOutExact_mono {p1 p2 q1 q2 : Rat} (h1 : 0 ≤ p1) (h2 : 0 ≤ p2) (hq1 : p1 ≤ q1) (hq2 : p2 ≤ q2) :
    pulseOutExact p1 p2 ≤ pulseOutExact q1 q2 := by
  rw [pulseOutExact_eq h1 h2, pulseOutExact_eq (h1.trans hq1) (h2.trans hq2)]
  gcongr
  exact saturating_mono (by positivity) (by gcongr)

theorem tndOutExact_mono {t n d t' n' d' : Rat} (ht : 0 ≤ t) (hn : 0 ≤ n) (hd : 0 ≤ d) (ht' : t ≤ t') (hn' : n ≤ n')
    (hd' : d ≤ d') : tndOutExact t n d ≤ tndOutExact t' n' d' := by
  rw [tndOutExact_eq ht hn hd, tndOutExact_eq (ht.trans ht') (hn.trans hn') (hd.trans hd')]
  gcongr
  exact saturating_mono (by positivity) (by gcongr)

/-- Settles O47: the saturating function and the weighted sums are monotone. -/
theorem mixerIsMonotone : Obligations.MixerIsMonotone := by
  unfold Obligations.MixerIsMonotone
  exact ⟨fun _ _ _ _ h1 h2 hq1 hq2 => pulseOutExact_mono h1 h2 hq1 hq2,
    fun _ _ _ _ _ _ ht hn hd ht' hn' hd' => tndOutExact_mono ht hn hd ht' hn' hd'⟩

/-! The range (R165) -/

theorem pulseOutExact_max : pulseOutExact 15 15 ≤ 258483106 / 1000000000 := by norm_num [pulseOutExact]

theorem tndOutExact_max : tndOutExact 15 15 127 ≤ 7415162452 / 10000000000 := by norm_num [tndOutExact]

theorem mixerExact_max : mixerExact 15 15 15 15 127 ≤ 999999351 / 1000000000 := by
  norm_num [mixerExact, pulseOutExact, tndOutExact]

theorem mixerExact_range {p1 p2 t n d : Rat} (h1 : 0 ≤ p1 ∧ p1 ≤ 15) (h2 : 0 ≤ p2 ∧ p2 ≤ 15) (ht : 0 ≤ t ∧ t ≤ 15)
    (hn : 0 ≤ n ∧ n ≤ 15) (hd : 0 ≤ d ∧ d ≤ 127) :
    0 ≤ pulseOutExact p1 p2 ∧ pulseOutExact p1 p2 ≤ pulseOutExact 15 15 ∧ 0 ≤ tndOutExact t n d ∧
      tndOutExact t n d ≤ tndOutExact 15 15 127 ∧ 0 ≤ mixerExact p1 p2 t n d ∧
      mixerExact p1 p2 t n d ≤ mixerExact 15 15 15 15 127 := by
  have hpulse0 : 0 ≤ pulseOutExact p1 p2 := by
    simpa [pulseOutExact] using pulseOutExact_mono le_rfl le_rfl h1.1 h2.1
  have htnd0 : 0 ≤ tndOutExact t n d := by
    simpa [tndOutExact] using tndOutExact_mono le_rfl le_rfl le_rfl ht.1 hn.1 hd.1
  have hpulse := pulseOutExact_mono h1.1 h2.1 h1.2 h2.2
  have htnd := tndOutExact_mono ht.1 hn.1 hd.1 ht.2 hn.2 hd.2
  exact ⟨hpulse0, hpulse, htnd0, htnd, add_nonneg hpulse0 htnd0, add_le_add hpulse htnd⟩

end Sys2Proof.Proofs
end

section
/-! PROOFS. How far an evaluation in a format may lie from the exact value (spec/43_mixer.md R162): a factor for each
rounding, and a fixed slack for what underflows or overflows (notes/assumptions/11.md). -/

namespace Sys2Proof.Proofs

open Sys2Proof.Machine Sys2Proof.Claims

/-- By what factor one rounding may change a value, in either format: more than `1 + 2^-24`. -/
def growth : Rat := 1 + 1 / 10 ^ 7

/-- More than one rounding loses by underflow, and not less than the reciprocal of a value that overflows, in either
format. -/
def loss : Rat := 1 / 2 ^ 127

theorem one_le_growth_pow (k : Nat) : 1 ≤ growth ^ k := one_le_pow₀ (by norm_num [growth])

theorem loss_pos : 0 < loss := by norm_num [loss]

/-- `q` and `v` are not negative, and each is at most the other with the slack `δ` and the factor of `k` roundings. -/
structure Approx (k : Nat) (δ q v : Rat) : Prop where
  left_nonneg : 0 ≤ q
  right_nonneg : 0 ≤ v
  slack_nonneg : 0 ≤ δ
  le : q ≤ (v + δ) * growth ^ k
  ge : v ≤ (q + δ) * growth ^ k

namespace Approx

variable {j k : Nat} {δ ε q r u v w : Rat}

theorem self (hq : 0 ≤ q) : Approx 0 0 q q := ⟨hq, hq, le_rfl, by simp, by simp⟩

theorem bound_mono (hv : 0 ≤ v) (hδ : 0 ≤ δ) (hjk : j ≤ k) (hδε : δ ≤ ε) :
    (v + δ) * growth ^ j ≤ (v + ε) * growth ^ k := by
  have h : growth ^ j ≤ growth ^ k := pow_le_pow_right₀ (by norm_num [growth]) hjk
  have hj := one_le_growth_pow j
  gcongr
  linarith

theorem mono (h : Approx j δ q v) (hjk : j ≤ k) (hδε : δ ≤ ε) : Approx k ε q v where
  left_nonneg := h.left_nonneg
  right_nonneg := h.right_nonneg
  slack_nonneg := h.slack_nonneg.trans hδε
  le := h.le.trans (bound_mono h.right_nonneg h.slack_nonneg hjk hδε)
  ge := h.ge.trans (bound_mono h.left_nonneg h.slack_nonneg hjk hδε)

theorem zero : Approx 1 loss 0 0 := (self le_rfl).mono (Nat.zero_le 1) loss_pos.le

theorem bound_trans (hδ : 0 ≤ δ) (hq : q ≤ (v + δ) * growth ^ j) (hv : v ≤ (w + ε) * growth ^ k) :
    q ≤ (w + (δ + ε)) * growth ^ (j + k) := by
  have hj := one_le_growth_pow j
  have hk := one_le_growth_pow k
  calc q ≤ (v + δ) * growth ^ j := hq
    _ ≤ ((w + ε) * growth ^ k + δ * growth ^ k) * growth ^ j := by
      gcongr
      exact le_mul_of_one_le_right hδ hk
    _ = (w + (δ + ε)) * growth ^ (j + k) := by rw [pow_add]; ring

theorem trans (h : Approx j δ q v) (h' : Approx k ε v w) : Approx (j + k) (δ + ε) q w where
  left_nonneg := h.left_nonneg
  right_nonneg := h'.right_nonneg
  slack_nonneg := add_nonneg h.slack_nonneg h'.slack_nonneg
  le := bound_trans h.slack_nonneg h.le h'.le
  ge := by
    rw [add_comm j k, add_comm δ ε]
    exact bound_trans h'.slack_nonneg h'.ge h.ge

theorem add (h : Approx k δ q v) (h' : Approx k ε r w) : Approx k (δ + ε) (q + r) (v + w) where
  left_nonneg := add_nonneg h.left_nonneg h'.left_nonneg
  right_nonneg := add_nonneg h.right_nonneg h'.right_nonneg
  slack_nonneg := add_nonneg h.slack_nonneg h'.slack_nonneg
  le := by linarith [h.le, h'.le]
  ge := by linarith [h.ge, h'.ge]

theorem mul_left (h : Approx k δ q v) {c : Rat} (hc : 0 ≤ c) : Approx k (c * δ) (c * q) (c * v) where
  left_nonneg := mul_nonneg hc h.left_nonneg
  right_nonneg := mul_nonneg hc h.right_nonneg
  slack_nonneg := mul_nonneg hc h.slack_nonneg
  le := by rw [← mul_add, mul_assoc]; exact mul_le_mul_of_nonneg_left h.le hc
  ge := by rw [← mul_add, mul_assoc]; exact mul_le_mul_of_nonneg_left h.ge hc

/-- Dividing by an integer does not add to the slack. -/
theorem div_right (h : Approx k δ q v) {c : Rat} (hc : 1 ≤ c) : Approx k δ (q / c) (v / c) := by
  have h' := h.mul_left (inv_nonneg.2 (zero_le_one.trans hc))
  rw [inv_mul_eq_div, inv_mul_eq_div, inv_mul_eq_div] at h'
  exact h'.mono le_rfl (div_le_self h.slack_nonneg hc)

/-- The saturating function grows no faster than its argument, and no more than by its increment. -/
theorem saturating_bound (hw : 0 ≤ w) (hv : 0 ≤ v) (hδ : 0 ≤ δ) (h : w ≤ (v + δ) * growth ^ k) :
    saturating w ≤ (saturating v + δ) * growth ^ k := by
  have hg := one_le_growth_pow k
  generalize growth ^ k = g at h hg
  have hfactor : saturating ((v + δ) * g) ≤ saturating (v + δ) * g := by
    unfold saturating
    rw [div_mul_eq_mul_div]
    gcongr
    exact le_mul_of_one_le_right (by positivity) hg
  have hslack : saturating (v + δ) ≤ saturating v + δ := by
    unfold saturating
    rw [add_div]
    gcongr
    · linarith
    · exact div_le_self hδ (by linarith)
  calc saturating w ≤ saturating ((v + δ) * g) := saturating_mono hw h
    _ ≤ saturating (v + δ) * g := hfactor
    _ ≤ (saturating v + δ) * g := by gcongr

theorem map_saturating (h : Approx k δ q v) : Approx k δ (saturating q) (saturating v) where
  left_nonneg := saturating_nonneg h.left_nonneg
  right_nonneg := saturating_nonneg h.right_nonneg
  slack_nonneg := h.slack_nonneg
  le := saturating_bound h.left_nonneg h.right_nonneg h.slack_nonneg h.le
  ge := saturating_bound h.right_nonneg h.left_nonneg h.slack_nonneg h.ge

/-- Eight roundings and a slack far below 1e-30 are within R162's tolerance. -/
theorem close (h : Approx 8 δ q v) (hδ : δ ≤ 1 / 2 ^ 110) : Close q v := by
  obtain ⟨hq0, hv0, hδ0, hle, hge⟩ := h
  norm_num [growth] at hle hge
  norm_num at hδ
  rw [Close, abs_le]
  constructor <;> norm_num <;> linarith

/-- So such a value is hardly greater. -/
theorem le_add (h : Approx k δ q v) (hk : k ≤ 8) (hδ : δ ≤ 1 / 2 ^ 110) : q ≤ v + (v / 10 ^ 6 + 1 / 10 ^ 30) := by
  have := (abs_le.1 ((h.mono hk le_rfl).close hδ)).2
  linarith

end Approx

/-! One rounding -/

theorem loss_inv_le_overflowBound (f : MixFormat) : loss⁻¹ ≤ overflowBound f := by
  cases f with
  | binary32 => norm_num [loss, overflowBound, precision, greatestExp]
  | binary64 =>
    have h : (2 : Rat) ^ (127 : Int) ≤ 2 ^ (971 : Int) := two_zpow_le (by norm_num)
    simp only [overflowBound, precision, greatestExp]
    generalize (2 : Rat) ^ (971 : Int) = b at h ⊢
    norm_num [loss] at h ⊢
    linarith

/-- Half a last place is at most a relative 2^-24, or 2^-150 where the coefficient is not full. -/
theorem half_last_place_le {f : MixFormat} {q : Int} {x : Rat} (hx : 0 ≤ x)
    (hfull : q = leastExp f ∨ 2 ^ (precision f - 1) ≤ x) : (2 : Rat) ^ q / 2 ≤ x * 2 ^ q / 2 ^ 24 + 1 / 2 ^ 150 := by
  have hq : (0 : Rat) < 2 ^ q := by positivity
  have hxq : 0 ≤ x * 2 ^ q / 2 ^ 24 := by positivity
  rcases hfull with rfl | hfull
  · have hleast : (2 : Rat) ^ leastExp f ≤ 2 ^ (-149 : Int) := two_zpow_le (by cases f <;> decide)
    norm_num at hleast
    linarith
  · have h23 : (2 : Rat) ^ 23 ≤ x :=
      (pow_le_pow_right₀ (by norm_num) (by have := precision_bounds f; omega)).trans hfull
    have := mul_le_mul_of_nonneg_right h23 hq.le
    linarith

/-- A finite result of rounding is off by at most half a last place. -/
theorem round_error {f : MixFormat} {s s' : Bool} {num den m : Nat} {e : Int} (hd : 0 < den)
    (h : Fp.round f s num den = .fin s' m e) :
    |(m * 2 ^ e : Rat) - num / den| ≤ num / den / 2 ^ 24 + 1 / 2 ^ 150 := by
  rcases Nat.eq_zero_or_pos num with rfl | hn
  · rw [Fp.round, if_pos rfl] at h
    cases h
    norm_num
  · obtain ⟨q, m', -, -, -, hfull, -, ⟨hm, -⟩, hround⟩ := Fp.round_cases f s hn hd
    rw [minExp_eq, prec_eq] at hfull
    rw [h] at hround
    obtain ⟨rfl, rfl⟩ : m = m' ∧ e = q := by
      split at hround <;> cases hround
      exact ⟨rfl, rfl⟩
    have he : (0 : Rat) < 2 ^ e := by positivity
    obtain ⟨x, hx⟩ : ∃ x : Rat, x = num / den / 2 ^ e := ⟨_, rfl⟩
    have hxv : (num / den : Rat) = x * 2 ^ e := by rw [hx, div_mul_cancel₀ _ he.ne']
    have hx0 : 0 ≤ x := by rw [hx]; positivity
    rw [← hx] at hfull hm
    calc |(m * 2 ^ e : Rat) - num / den| = |x - m| * 2 ^ e := by
          rw [hxv, ← sub_mul, abs_mul, abs_of_pos he, abs_sub_comm]
      _ ≤ 2 ^ e / 2 := by linarith [mul_le_mul_of_nonneg_right hm he.le]
      _ ≤ num / den / 2 ^ 24 + 1 / 2 ^ 150 := hxv ▸ half_last_place_le hx0 hfull

/-- Rounding overflows to infinity, or gives a value of the format, off by at most half a last place. -/
theorem round_outcome (f : MixFormat) (s : Bool) (num : Nat) {den : Nat} (hd : 0 < den) :
    (Fp.round f s num den = .inf s ∧ overflowBound f ≤ num / den) ∨
    ∃ m e, Fp.round f s num den = .fin s m e ∧ FormatValue f (signed s m e) ∧
      |(m * 2 ^ e : Rat) - num / den| ≤ num / den / 2 ^ 24 + 1 / 2 ^ 150 := by
  have hnear := round_nearest f s num hd
  cases hround : Fp.round f s num den with
  | nan => rw [hround] at hnear; exact hnear.elim
  | inf s' =>
    rw [hround] at hnear
    obtain ⟨rfl, hbound⟩ := hnear
    rw [abs_sign_mul s' (by positivity)] at hbound
    exact .inl ⟨rfl, hbound⟩
  | fin s' m e =>
    rw [hround] at hnear
    obtain ⟨rfl, -, hval, -⟩ := hnear
    exact .inr ⟨m, e, rfl, hval, round_error hd hround⟩

/-- A value and its rounding are one rounding apart. -/
theorem approx_of_error {r v : Rat} (hr : 0 ≤ r) (hv : 0 ≤ v) (h : |r - v| ≤ v / 2 ^ 24 + 1 / 2 ^ 150) :
    Approx 1 loss r v := by
  obtain ⟨h1, h2⟩ := abs_le.1 h
  refine ⟨hr, hv, loss_pos.le, ?_, ?_⟩ <;> norm_num [growth, loss] at h1 h2 ⊢ <;> linarith

/-- So are their reciprocals, away from the subnormals. -/
theorem approx_inv_of_error {r v : Rat} (hv : 1 ≤ v) (h : |r - v| ≤ v / 2 ^ 24 + 1 / 2 ^ 150) :
    0 < r ∧ Approx 1 loss r⁻¹ v⁻¹ := by
  obtain ⟨h1, h2⟩ := abs_le.1 h
  have hr : 0 < r := by norm_num at h1; linarith
  have hv0 : 0 < v := by linarith
  have hrv : r ≤ v * growth := by norm_num [growth] at h2 ⊢; linarith
  have hvr : v ≤ r * growth := by norm_num [growth] at h1 ⊢; linarith
  have hinv {a b : Rat} (ha : 0 < a) (hb : 0 < b) (hab : a ≤ b * growth) : b⁻¹ ≤ a⁻¹ * growth := by
    rw [inv_mul_eq_div, inv_le_comm₀ hb (by unfold growth; positivity), inv_div, div_le_iff₀ (by norm_num [growth])]
    exact hab
  have hloss : Approx 1 0 r⁻¹ v⁻¹ :=
    ⟨by positivity, by positivity, le_rfl, by simpa using hinv hv0 hr hvr, by simpa using hinv hr hv0 hrv⟩
  exact ⟨hr, hloss.mono le_rfl loss_pos.le⟩

end Sys2Proof.Proofs
end

section
/-! PROOFS. The evaluation of the Mixer in a format (spec/43_mixer.md R161-R163) against its exact value, operation by
operation. A zero keeps its sign, and a quotient that overflows goes on as the reciprocal of 0. -/

namespace Sys2Proof.Proofs

open Sys2Proof.Machine Sys2Proof.Claims

/-! Amounts: finite values that are not negative -/

/-- `x` is finite with the sign `s` and the exact value `q`, which is not negative; so with the sign set it is `-0`. -/
structure IsAmount (x : Fp) (s : Bool) (q : Rat) : Prop where
  finite : ∃ m e, x = .fin s m e ∧ signed s m e = q
  nonneg : 0 ≤ q

namespace IsAmount

variable {f : MixFormat} {x y : Fp} {s s' : Bool} {a b q : Rat}

theorem toRat? (h : IsAmount x s q) : x.toRat? = some q := by
  obtain ⟨⟨m, e, rfl, hq⟩, -⟩ := h
  rw [toRat?_fin, hq]

theorem exists_of_toRat? (h : x.toRat? = some q) (hq : 0 ≤ q) : ∃ s, IsAmount x s q := by
  cases x with
  | nan => cases h
  | inf s => cases h
  | fin s m e => exact ⟨s, ⟨m, e, rfl, by rwa [toRat?_fin, Option.some.injEq] at h⟩, hq⟩

theorem eq_zero_of_sign (h : IsAmount x true q) : q = 0 := by
  obtain ⟨⟨m, e, rfl, hq⟩, hnonneg⟩ := h
  have : (0 : Rat) ≤ m * 2 ^ e := by positivity
  rw [signed_true] at hq
  linarith

theorem isZero_iff (h : IsAmount x s q) : x.isZero = true ↔ q = 0 := by
  obtain ⟨⟨m, e, rfl, rfl⟩, -⟩ := h
  rw [signed_eq_zero_iff, Fp.isZero, beq_iff_eq]

/-- A nonzero amount has the sign clear. -/
theorem sign_eq_false (h : IsAmount x s q) (hx : ¬ x.isZero = true) : s = false := by
  rw [← Bool.not_eq_true]
  rintro rfl
  exact hx (h.isZero_iff.2 h.eq_zero_of_sign)

theorem zero (s : Bool) (e : Int) : IsAmount (.fin s 0 e) s 0 := ⟨⟨0, e, rfl, signed_zero s e⟩, le_rfl⟩

/-- Rounding an amount below the overflow. -/
theorem round {num den : Nat} (hd : 0 < den) (hq : (num / den : Rat) = q) (hs : s = true → q = 0) (hlt : q < loss⁻¹) :
    ∃ r, IsAmount (Fp.round f s num den) s r ∧ FormatValue f r ∧ Approx 1 loss r q := by
  have hq0 : 0 ≤ q := by rw [← hq]; positivity
  rcases round_outcome f s num hd with ⟨-, hover⟩ | ⟨m, e, hround, hval, herr⟩
  · rw [hq] at hover
    exact absurd (hover.trans_lt hlt) (not_lt.2 (loss_inv_le_overflowBound f))
  · rw [hround]
    cases s with
    | false =>
      have hr : (0 : Rat) ≤ m * 2 ^ e := by positivity
      refine ⟨signed false m e, ⟨⟨m, e, rfl, rfl⟩, by rwa [signed_false]⟩, hval, ?_⟩
      rw [signed_false]
      exact approx_of_error hr hq0 (hq ▸ herr)
    | true =>
      have hnum : num = 0 := by simpa [hs rfl, hd.ne'] using hq
      subst hnum
      rw [Fp.round, if_pos rfl] at hround
      cases hround
      rw [signed_zero] at hval
      exact ⟨0, zero true _, hval, hs rfl ▸ .zero⟩

/-- The sum of two amounts is negative only where both are `-0`. -/
theorem add (hx : IsAmount x s a) (hy : IsAmount y s' b) (hlt : a + b < loss⁻¹) :
    ∃ r, IsAmount (Fp.add f x y) (s && s') r ∧ FormatValue f r ∧ Approx 1 loss r (a + b) := by
  have hab : 0 ≤ a + b := add_nonneg hx.nonneg hy.nonneg
  obtain ⟨⟨m, e, rfl, ha⟩, -⟩ := id hx
  obtain ⟨⟨m', e', rfl, hb⟩, -⟩ := id hy
  rcases Fp.add_fin f hx.toRat? hy.toRat? with ⟨hzero, hadd⟩ | ⟨hne, c, k, hck, hadd⟩
  · rw [hadd, hzero]
    exact ⟨0, zero _ _, by simpa using formatValue_natCast f (n := 0) (by norm_num),
      .zero⟩
  · have hsign : (s && s') = false := by
      rw [Bool.and_eq_false_iff, ← Bool.not_eq_true, ← Bool.not_eq_true]
      by_contra hboth
      push Not at hboth
      obtain ⟨rfl, rfl⟩ := hboth
      exact hne (by rw [hx.eq_zero_of_sign, hy.eq_zero_of_sign, add_zero])
    rw [hadd, decide_eq_false (not_lt.2 hab), hsign]
    refine round (scaleUp_pos Nat.one_pos _) ?_ (fun h => absurd h (by simp)) hlt
    rw [scaleUp_ratio_one, hck, abs_of_nonneg hab]

theorem div (hx : IsAmount x s a) (hy : IsAmount y false b) (hb : 0 < b) (hlt : a / b < loss⁻¹) :
    ∃ r, IsAmount (Fp.div f x y) s r ∧ Approx 1 loss r (a / b) := by
  obtain ⟨⟨m, e, rfl, ha⟩, -⟩ := id hx
  obtain ⟨⟨m', e', rfl, hb'⟩, -⟩ := id hy
  have hm' : m' ≠ 0 := fun h => hb.ne' (by rw [← hb', h, signed_zero])
  obtain ⟨num, den, hden, hratio, hdiv⟩ := Fp.div_fin f s m e false m' e' hm'
  have hq : (num / den : Rat) = a / b := by
    rw [hratio, ← abs_signed s, ← signed_false m', ha, hb', abs_of_nonneg hx.nonneg]
  rw [hdiv, Bool.bne_false]
  have hzero : s = true → a / b = 0 := by
    rintro rfl
    rw [hx.eq_zero_of_sign, zero_div]
  obtain ⟨r, hr, -, happrox⟩ := round (f := f) hden hq hzero hlt
  exact ⟨r, hr, happrox⟩

/-- A literal is rounded to an amount. -/
theorem lit (f : MixFormat) {num den : Nat} (hd : 0 < den) (hlt : (num / den : Rat) < loss⁻¹) :
    ∃ r, IsAmount (Fp.lit f num den) false r ∧ Approx 1 loss r (num / den) := by
  obtain ⟨r, hr, -, happrox⟩ := round (f := f) (s := false) hd rfl (fun h => absurd h (by simp)) hlt
  exact ⟨r, hr, happrox⟩

/-- A literal that is an integer below 2^24 is exact. -/
theorem lit_natCast (f : MixFormat) {n : Nat} (hn : n < 2 ^ 24) : IsAmount (Fp.lit f n 1) false n := by
  have hnear := (roundsToNearest f).2 n 1 one_pos
  rw [Nat.cast_one, div_one] at hnear
  obtain ⟨m, e, hlit, hvalue⟩ := eq_of_nearest_formatValue hnear (formatValue_natCast f hn)
  exact ⟨⟨m, e, hlit, hvalue⟩, Nat.cast_nonneg n⟩

end IsAmount

/-! Reciprocals: positive values, or infinity with the reciprocal 0 -/

/-- `x` is positive with the reciprocal `w`, or `x` is infinity and `w` is 0. -/
def HasRecip (x : Fp) (w : Rat) : Prop := (x = .inf false ∧ w = 0) ∨ (0 < w ∧ IsAmount x false w⁻¹)

namespace HasRecip

variable {f : MixFormat} {x y : Fp} {a b q w : Rat}

/-- Rounding a quotient from 1 on; past the overflow its reciprocal is below the slack. -/
theorem round {num den : Nat} (hd : 0 < den) (hq : (num / den : Rat) = q) (h1 : 1 ≤ q) :
    ∃ w, HasRecip (Fp.round f false num den) w ∧ Approx 1 loss w q⁻¹ := by
  have hq0 : 0 < q := by linarith
  rcases round_outcome f false num hd with ⟨hround, hover⟩ | ⟨m, e, hround, -, herr⟩
  · rw [hq] at hover
    have hinv : q⁻¹ ≤ loss := inv_le_of_inv_le₀ loss_pos ((loss_inv_le_overflowBound f).trans hover)
    refine ⟨0, .inl ⟨hround, rfl⟩, le_rfl, by positivity, loss_pos.le, ?_, ?_⟩
    · have := loss_pos
      unfold growth
      positivity
    · rw [zero_add]
      exact hinv.trans (le_mul_of_one_le_right loss_pos.le (one_le_growth_pow 1))
  · rw [hq] at herr
    obtain ⟨hr, happrox⟩ := approx_inv_of_error h1 herr
    refine ⟨(m * 2 ^ e)⁻¹, .inr ⟨inv_pos.2 hr, ?_⟩, happrox⟩
    rw [hround, inv_inv]
    exact ⟨⟨m, e, rfl, signed_false m e⟩, hr.le⟩

/-- A division whose quotient is from 1 on; by a zero it is infinity. -/
theorem div (hx : IsAmount x false a) (hy : IsAmount y false b) (ha : 0 < a) (hba : b ≤ a) :
    ∃ w, HasRecip (Fp.div f x y) w ∧ Approx 1 loss w (b / a) := by
  obtain ⟨⟨m, e, rfl, ha'⟩, -⟩ := id hx
  obtain ⟨⟨m', e', rfl, hb'⟩, -⟩ := id hy
  have hm : m ≠ 0 := fun h => ha.ne' (by rw [← ha', h, signed_zero])
  by_cases hm' : m' = 0
  · subst hm'
    rw [signed_zero] at hb'
    refine ⟨0, .inl ⟨by simp [Fp.div, hm], rfl⟩, ?_⟩
    rw [← hb', zero_div]
    exact .zero
  · obtain ⟨num, den, hden, hratio, hdiv⟩ := Fp.div_fin f false m e false m' e' hm'
    have hb : 0 < b := lt_of_le_of_ne hy.nonneg fun h => hm' (signed_eq_zero_iff.1 (hb'.trans h.symm))
    have hq : (num / den : Rat) = a / b := by rw [hratio, ← signed_false m, ← signed_false m', ha', hb']
    rw [hdiv, ← inv_div]
    exact round hden hq ((one_le_div hb).2 hba)

/-- Adding the literal 100 saturates the reciprocal. -/
theorem add (hx : HasRecip x w) (hy : IsAmount y false 100) :
    ∃ w', HasRecip (Fp.add f x y) w' ∧ Approx 1 loss w' (saturating w) := by
  obtain ⟨⟨m', e', rfl, hy'⟩, -⟩ := id hy
  rcases hx with ⟨rfl, rfl⟩ | ⟨hw, hx⟩
  · refine ⟨0, .inl ⟨rfl, rfl⟩, ?_⟩
    rw [saturating, zero_div]
    exact .zero
  · obtain ⟨⟨m, e, rfl, hx'⟩, -⟩ := id hx
    have hsum : 1 ≤ w⁻¹ + 100 := by have := inv_pos.2 hw; linarith
    have hsat : saturating w = (w⁻¹ + 100)⁻¹ := by unfold saturating; field_simp
    rcases Fp.add_fin f hx.toRat? hy.toRat? with ⟨hzero, -⟩ | ⟨-, c, k, hck, hadd⟩
    · linarith
    · rw [hadd, hsat, decide_eq_false (by linarith)]
      refine round (scaleUp_pos Nat.one_pos _) ?_ hsum
      rw [scaleUp_ratio_one, hck, abs_of_pos (by linarith)]

/-- Dividing by it is multiplying by the reciprocal; by infinity it is a zero. -/
theorem divBy (hx : IsAmount x false a) (hy : HasRecip y w) (hlt : a * w < loss⁻¹) :
    ∃ r, IsAmount (Fp.div f x y) false r ∧ Approx 1 loss r (a * w) := by
  rcases hy with ⟨rfl, rfl⟩ | ⟨hw, hy⟩
  · obtain ⟨⟨m, e, rfl, -⟩, -⟩ := hx
    rw [mul_zero]
    exact ⟨0, .zero false _, .zero⟩
  · have := hx.div (f := f) hy (inv_pos.2 hw) (by rwa [div_inv_eq_mul])
    rwa [div_inv_eq_mul] at this

end HasRecip

/-! The two outputs and their sum -/

/-- The evaluation both outputs share: `c / (k / s + 100)`, from a sum and a literal that are themselves approximate. -/
theorem output_amount {f : MixFormat} {C K H S : Fp} {c c₀ k s s₀ : Rat} {j : Nat} (hC : IsAmount C false c)
    (hc : Approx 1 loss c c₀) (hc₀ : c₀ ≤ 160) (hK : IsAmount K false k) (hk : 1 ≤ k) (hH : IsAmount H false 100)
    (hS : IsAmount S false s) (hsk : s ≤ k) (hs : Approx j (5 * loss) s s₀) :
    ∃ r, IsAmount (Fp.div f C (Fp.add f (Fp.div f K S) H)) false r ∧
      Approx (j + 4) (1500 * loss) r (c₀ * saturating (s₀ / k)) := by
  obtain ⟨w, hw, happrox⟩ := HasRecip.div (f := f) hK hS (by linarith) hsk
  obtain ⟨w', hw', happrox'⟩ := hw.add (f := f) hH
  have hden := (happrox'.trans happrox.map_saturating).trans (hs.div_right hk).map_saturating
  have hc161 : c ≤ 161 := (hc.le_add (by norm_num) (by norm_num [loss])).trans (by linarith)
  have hw1 : w' ≤ 1 := by
    have : saturating w ≤ 1 / 100 := saturating_le happrox.left_nonneg
    exact (happrox'.le_add (by norm_num) (by norm_num [loss])).trans (by linarith)
  have hsat1 : saturating (s₀ / k) ≤ 1 := (saturating_le (hs.div_right hk).right_nonneg).trans (by norm_num)
  have hlt : c * w' < loss⁻¹ := by
    calc c * w' ≤ 161 * 1 := mul_le_mul hc161 hw1 happrox'.left_nonneg (by norm_num)
      _ < loss⁻¹ := by norm_num [loss]
  obtain ⟨r, hr, hquot⟩ := HasRecip.divBy (f := f) hC hw' hlt
  have hnum := hc.mul_left (saturating_nonneg (hs.div_right hk).right_nonneg)
  rw [mul_comm _ c, mul_comm _ c₀] at hnum
  refine ⟨r, hr, ((hquot.trans (hden.mul_left hC.nonneg)).trans hnum).mono (by omega) ?_⟩
  have h1 : c * (loss + loss + 5 * loss) ≤ 161 * (loss + loss + 5 * loss) := by
    have := loss_pos
    gcongr
  have h2 : saturating (s₀ / k) * loss ≤ 1 * loss := by
    have := loss_pos
    gcongr
  linarith [loss_pos]

end Sys2Proof.Proofs
end

section
/-! PROOFS. The sample of MIX (spec/43_mixer.md R160-R165): the evaluated Mixer is finite and close to the exact value,
and what MIX returns is that evaluation, or a free value as close. -/

namespace Sys2Proof.Proofs

open Sys2Proof.Machine Sys2Proof.Claims

/-! The evaluated Mixer -/

section

variable {x1 x2 x3 x4 x5 : Fp} {s1 s2 s3 s4 s5 : Bool} {p1 p2 t n d : Rat}

theorem pulseOut_amount (f : MixFormat) (h1 : IsAmount x1 s1 p1) (h2 : IsAmount x2 s2 p2) (hp1 : p1 ≤ 15)
    (hp2 : p2 ≤ 15) :
    ∃ r, IsAmount (pulseOut f x1 x2) false r ∧ Approx 5 (1500 * loss) r (pulseOutExact p1 p2) := by
  rw [pulseOutExact_eq h1.nonneg h2.nonneg, pulseOut]
  by_cases hguard : (x1.isZero && x2.isZero) = true
  · rw [if_pos hguard]
    rw [Bool.and_eq_true, h1.isZero_iff, h2.isZero_iff] at hguard
    obtain ⟨rfl, rfl⟩ := hguard
    refine ⟨0, .zero false _, ?_⟩
    simpa [saturating] using Approx.zero.mono (k := 5) (ε := 1500 * loss) (by norm_num) (by norm_num [loss])
  · rw [if_neg hguard]
    have hsign : (s1 && s2) = false := by
      rw [Bool.and_eq_true, not_and_or] at hguard
      rcases hguard with h | h
      · rw [h1.sign_eq_false h, Bool.false_and]
      · rw [h2.sign_eq_false h, Bool.and_false]
    obtain ⟨S, hS, -, hSapprox⟩ := h1.add (f := f) h2 (by norm_num [loss]; linarith)
    rw [hsign] at hS
    have hSmax : S ≤ 8128 := (hSapprox.le_add (by norm_num) (by norm_num [loss])).trans (by linarith)
    obtain ⟨c, hC, hc⟩ := IsAmount.lit f (num := 9588) (den := 100) (by norm_num) (by norm_num [loss])
    obtain ⟨r, hr, happrox⟩ := output_amount (c₀ := 9588 / 100) hC (mod_cast hc) (by norm_num)
      (IsAmount.lit_natCast f (n := 8128) (by norm_num)) (by norm_num)
      (mod_cast IsAmount.lit_natCast f (n := 100) (by norm_num)) hS (mod_cast hSmax)
      (hSapprox.mono le_rfl (by norm_num [loss]))
    exact ⟨r, hr, mod_cast happrox⟩

/-- The quotient of an input by one of the three literals. -/
theorem weighted_amount (f : MixFormat) {k : Nat} (hk0 : 0 < k) (hk : k < 2 ^ 24) (h3 : IsAmount x3 s3 t)
    (ht : t ≤ 127) : ∃ r, IsAmount (Fp.div f x3 (Fp.lit f k 1)) s3 r ∧ Approx 1 loss r (t / k) := by
  have hk1 : (1 : Rat) ≤ k := by exact_mod_cast hk0
  refine h3.div (IsAmount.lit_natCast f hk) (by linarith) ?_
  calc t / k ≤ t := div_le_self h3.nonneg hk1
    _ < loss⁻¹ := ht.trans_lt (by norm_num [loss])

/-- The three-term sum, left-associated (R162). -/
theorem weightedSum_amount (f : MixFormat) (h3 : IsAmount x3 s3 t) (h4 : IsAmount x4 s4 n) (h5 : IsAmount x5 s5 d)
    (ht : t ≤ 15) (hn : n ≤ 15) (hd : d ≤ 127) :
    ∃ r, IsAmount (Fp.add f (Fp.add f (Fp.div f x3 (Fp.lit f 8227 1)) (Fp.div f x4 (Fp.lit f 12241 1)))
        (Fp.div f x5 (Fp.lit f 22638 1))) (s3 && s4 && s5) r ∧
      Approx 3 (5 * loss) r (t / 8227 + n / 12241 + d / 22638) := by
  obtain ⟨a, ha, haapprox⟩ := weighted_amount f (k := 8227) (by norm_num) (by norm_num) h3 (by linarith)
  obtain ⟨b, hb, hbapprox⟩ := weighted_amount f (k := 12241) (by norm_num) (by norm_num) h4 (by linarith)
  obtain ⟨c, hc, hcapprox⟩ := weighted_amount f (k := 22638) (by norm_num) (by norm_num) h5 hd
  have hab := haapprox.add hbapprox
  have habmax := hab.le_add (by norm_num) (by norm_num [loss])
  norm_num at habmax
  obtain ⟨u, hu, -, huapprox⟩ := ha.add (f := f) hb (by norm_num [loss]; linarith)
  have huc := (huapprox.trans hab).add (hcapprox.mono (k := 2) (by norm_num) le_rfl)
  have hucmax := huc.le_add (by norm_num) (by norm_num [loss])
  norm_num at hucmax
  obtain ⟨r, hr, -, happrox⟩ := hu.add (f := f) hc (by norm_num [loss]; linarith)
  exact ⟨r, hr, mod_cast (happrox.trans huc).mono le_rfl (by linarith)⟩

theorem tndOut_amount (f : MixFormat) (h3 : IsAmount x3 s3 t) (h4 : IsAmount x4 s4 n) (h5 : IsAmount x5 s5 d)
    (ht : t ≤ 15) (hn : n ≤ 15) (hd : d ≤ 127) :
    ∃ r, IsAmount (tndOut f x3 x4 x5) false r ∧ Approx 7 (1500 * loss) r (tndOutExact t n d) := by
  rw [tndOutExact_eq h3.nonneg h4.nonneg h5.nonneg, tndOut]
  by_cases hguard : (x3.isZero && x4.isZero && x5.isZero) = true
  · rw [if_pos hguard]
    rw [Bool.and_eq_true, Bool.and_eq_true, h3.isZero_iff, h4.isZero_iff, h5.isZero_iff] at hguard
    obtain ⟨⟨rfl, rfl⟩, rfl⟩ := hguard
    refine ⟨0, .zero false _, ?_⟩
    simpa [saturating] using Approx.zero.mono (k := 7) (ε := 1500 * loss) (by norm_num) (by norm_num [loss])
  · rw [if_neg hguard]
    have hsign : (s3 && s4 && s5) = false := by
      rw [Bool.and_eq_true, Bool.and_eq_true, not_and_or, not_and_or] at hguard
      rcases hguard with (h | h) | h
      · rw [h3.sign_eq_false h, Bool.false_and, Bool.false_and]
      · rw [h4.sign_eq_false h, Bool.and_false, Bool.false_and]
      · rw [h5.sign_eq_false h, Bool.and_false]
    obtain ⟨S, hS, hSapprox⟩ := weightedSum_amount f h3 h4 h5 ht hn hd
    rw [hsign] at hS
    have hSmax : S ≤ 1 := (hSapprox.le_add (by norm_num) (by norm_num [loss])).trans (by linarith)
    obtain ⟨C, hC, hCapprox⟩ := IsAmount.lit f (num := 15979) (den := 100) (by norm_num) (by norm_num [loss])
    obtain ⟨r, hr, happrox⟩ := output_amount (c₀ := 15979 / 100) hC (mod_cast hCapprox) (by norm_num)
      (mod_cast IsAmount.lit_natCast f (n := 1) (by norm_num)) le_rfl
      (mod_cast IsAmount.lit_natCast f (n := 100) (by norm_num)) hS hSmax hSapprox
    rw [div_one] at happrox
    exact ⟨r, hr, mod_cast happrox⟩

/-- R162: the evaluated Mixer is a value of the format, not negative, and within the tolerance of the exact value. -/
theorem mixer_amount (f : MixFormat) (h : InputValues x1 x2 x3 x4 x5 p1 p2 t n d) :
    ∃ q, IsAmount (mixer f x1 x2 x3 x4 x5) false q ∧ FormatValue f q ∧ Close q (mixerExact p1 p2 t n d) := by
  obtain ⟨h1, h2, h3, h4, h5, hp1, hp2, ht, hn, hd⟩ := h
  obtain ⟨s1, h1⟩ := IsAmount.exists_of_toRat? h1 hp1.1
  obtain ⟨s2, h2⟩ := IsAmount.exists_of_toRat? h2 hp2.1
  obtain ⟨s3, h3⟩ := IsAmount.exists_of_toRat? h3 ht.1
  obtain ⟨s4, h4⟩ := IsAmount.exists_of_toRat? h4 hn.1
  obtain ⟨s5, h5⟩ := IsAmount.exists_of_toRat? h5 hd.1
  obtain ⟨a, ha, haapprox⟩ := pulseOut_amount f h1 h2 hp1.2 hp2.2
  obtain ⟨b, hb, hbapprox⟩ := tndOut_amount f h3 h4 h5 ht.2 hn.2 hd.2
  have hsum := (haapprox.mono (k := 7) (by norm_num) le_rfl).add hbapprox
  have hab : a + b < loss⁻¹ := by
    obtain ⟨-, -, -, -, -, hmax⟩ := mixerExact_range hp1 hp2 ht hn hd
    have hexact := hmax.trans mixerExact_max
    have hle := hsum.le_add (by norm_num) (by norm_num [loss])
    rw [← mixerExact] at hle
    norm_num [loss]
    linarith
  obtain ⟨q, hq, hval, happrox⟩ := ha.add (f := f) hb hab
  exact ⟨q, hq, hval, (happrox.trans hsum).close (by norm_num [loss])⟩

end

/-- Settles O45: in contract the Mixer is finite. -/
theorem mixerNeverReturnsNan : Obligations.MixerNeverReturnsNan := by
  unfold Obligations.MixerNeverReturnsNan
  intro f x1 x2 x3 x4 x5 hin hnan
  obtain ⟨p1, p2, t, n, d, h⟩ := (inContract_iff ..).1 hin
  obtain ⟨q, ⟨⟨m, e, hfin, -⟩, -⟩, -⟩ := mixer_amount f h
  rw [hnan] at hfin
  cases hfin

/-! The sample that MIX returns (R160, R162) -/

/-- What a sample must be: a finite datum whose value is one of the format, in `[0, 1]`, within the tolerance of `e`. -/
def GoodSample (f : MixFormat) (a : Amp) (e : Rat) : Prop :=
  ∃ q, (Fp.unpack a).toRat? = some q ∧ FormatValue f q ∧ 0 ≤ q ∧ q ≤ 1 ∧ Close q e

theorem exact_eq {o : Outputs} {p1 p2 t n d : Rat} (h : HaveValues o p1 p2 t n d) :
    o.exact = mixerExact p1 p2 t n d := by
  obtain ⟨h1, h2, h3, h4, h5, -⟩ := h
  simp only [Outputs.exact, Fp.value, h1, h2, h3, h4, h5, Option.getD_some]

/-- The datum of an amount in the format reads back as it. -/
theorem IsAmount.toRat?_unpack_pack {f : MixFormat} {x : Fp} {s : Bool} {q : Rat} (h : IsAmount x s q)
    (hval : FormatValue f q) : (Fp.unpack x.pack).toRat? = some q := by
  obtain ⟨⟨m, e, rfl, rfl⟩, -⟩ := h
  obtain ⟨m', e', hread, hvalue⟩ := unpack_pack_fin hval
  rw [hread, toRat?_fin, hvalue]

/-- What conforms is a sample as `GoodSample` has it. -/
theorem goodSample_of_conforming {f : MixFormat} {o : Outputs} {a : Amp} (h : o.conforming f a = true) :
    GoodSample f a o.exact := by
  simp only [Outputs.conforming, Bool.and_eq_true, Fp.inRange_iff] at h
  obtain ⟨⟨⟨hof, q, hq, hq0, hq1⟩, hlo⟩, hhi⟩ := h
  have hlo := of_decide_eq_true hlo
  have hhi := of_decide_eq_true hhi
  rw [Fp.value, hq, Option.getD_some, mixTolerance] at hlo hhi
  refine ⟨q, hq, ?_, hq0, by exact_mod_cast hq1, abs_le.2 ⟨by linarith, by linarith⟩⟩
  obtain ⟨s, ⟨m, e, hfin, rfl⟩, -⟩ := IsAmount.exists_of_toRat? hq hq0
  exact (isOf_iff hfin f).1 hof

/-- Rounding does not pass a value of the format. -/
theorem round_le_of_le {f : MixFormat} {v r : Rat} {m : Nat} {e : Int} (h : Nearest f v false (.fin false m e))
    (hr : FormatValue f r) (hv : v ≤ r) : signed false m e ≤ r := by
  obtain ⟨-, -, -, -, -, -, hnear⟩ := h
  by_contra hlt
  rw [not_le] at hlt
  have hdist : |v - signed false m e| = signed false m e - v := by rw [abs_of_nonpos (by linarith), neg_sub]
  have hdist' : |v - r| = r - v := by rw [abs_of_nonpos (by linarith), neg_sub]
  rw [hdist] at hnear
  rcases hnear r hr with h | h | ⟨h, -⟩ <;> linarith

/-- The value of the format nearest to an exact value in `[0, 1]` is a sample as `GoodSample` has it. -/
theorem goodSample_round {f : MixFormat} {v : Rat} (h0 : 0 ≤ v) (h1 : v ≤ 1) :
    GoodSample f (Fp.round f false v.num.toNat v.den).pack v := by
  have hratio : (v.num.toNat / v.den : Rat) = v := by
    have hnum : ((v.num.toNat : Int) : Rat) = v.num := by rw [Int.toNat_of_nonneg (Rat.num_nonneg.2 h0)]
    rw [← Int.cast_natCast v.num.toNat, hnum, Rat.num_div_den]
  obtain ⟨r, hr, hval, happrox⟩ := IsAmount.round (f := f) (s := false) v.pos hratio
    (fun h => absurd h Bool.false_ne_true) (h1.trans_lt (by norm_num [loss]))
  refine ⟨r, hr.toRat?_unpack_pack hval, hval, hr.nonneg, ?_,
    (happrox.mono (by norm_num) le_rfl).close (by norm_num [loss])⟩
  have hnear := round_nearest f false v.num.toNat v.pos
  obtain ⟨⟨m, e, hround, rfl⟩, -⟩ := hr
  rw [hround, if_neg Bool.false_ne_true, one_mul, hratio] at hnear
  exact round_le_of_le hnear (by simpa using formatValue_natCast f (n := 1) (by norm_num)) h1

theorem goodSample_unstatedSample {o : Outputs} {p1 p2 t n d : Rat} (f : MixFormat)
    (h : HaveValues o p1 p2 t n d) : GoodSample f (o.unstatedSample f) (mixerExact p1 p2 t n d) := by
  rw [← exact_eq h]
  rcases Outputs.unstatedSample_cases f o with hconf | hround
  · exact goodSample_of_conforming hconf
  · rw [hround]
    obtain ⟨-, -, -, -, -, hp1, hp2, ht, hn, hd⟩ := id h
    obtain ⟨-, -, -, -, hlo, hhi⟩ := mixerExact_range hp1 hp2 ht hn hd
    rw [← exact_eq h] at hlo hhi
    exact goodSample_round hlo (hhi.trans (mixerExact_max.trans (by norm_num)))

/-- The sample of in-contract answers is a finite datum, not negative, within the tolerance of the exact value. -/
theorem mixed_close {o : Outputs} {p1 p2 t n d : Rat} (f : MixFormat) (h : HaveValues o p1 p2 t n d) :
    ∃ q, (Fp.unpack (o.mixed f)).toRat? = some q ∧ 0 ≤ q ∧ Close q (mixerExact p1 p2 t n d) := by
  unfold Outputs.mixed
  split
  · obtain ⟨q, hq, hval, hclose⟩ := mixer_amount f h
    exact ⟨q, hq.toRat?_unpack_pack hval, hq.nonneg, hclose⟩
  · obtain ⟨q, hq, -, hq0, -, hclose⟩ := goodSample_unstatedSample f h
    exact ⟨q, hq, hq0, hclose⟩

/-- Settles O43: the operations are correctly rounded, the free sample conforms, and MIX evaluates the formula as R161
writes it. -/
theorem mixReturnsTheSample : Obligations.MixReturnsTheSample := by
  unfold Obligations.MixReturnsTheSample
  refine ⟨fun f => ⟨roundsToNearest f, addsCorrectly f, dividesCorrectly f, carriesExactly f⟩,
    fun f o p1 p2 t n d h => goodSample_unstatedSample f h, fun s hin => ?_⟩
  simpa only [afterMix, Outputs.mixed, Outputs.sample, mixer, pulseOut, tndOut, Bool.and_eq_true, and_assoc]
    using answers_mix hin

/-- Settles O46: the range over the rationals is that of the greatest inputs, and the evaluation is close to it. -/
theorem mixerOutputRange : Obligations.MixerOutputRange := by
  unfold Obligations.MixerOutputRange
  refine ⟨fun p1 p2 t n d hp1 hp1' hp2 hp2' ht ht' hn hn' hd hd' => ?_, fun f x1 x2 x3 x4 x5 p1 p2 t n d h => ?_,
    fun s p1 p2 t n d h => ?_⟩
  · obtain ⟨hpulse0, hpulse, htnd0, htnd, hmix0, hmix⟩ :=
      mixerExact_range ⟨hp1, hp1'⟩ ⟨hp2, hp2'⟩ ⟨ht, ht'⟩ ⟨hn, hn'⟩ ⟨hd, hd'⟩
    exact ⟨hpulse0, hpulse, hpulse.trans pulseOutExact_max, htnd0, htnd, htnd.trans tndOutExact_max, hmix0,
      hmix.trans mixerExact_max⟩
  · obtain ⟨q, hq, -, hclose⟩ := mixer_amount f h
    exact ⟨q, hq.toRat?, hq.nonneg, hclose⟩
  · obtain ⟨q, hq, hq0, hclose⟩ := mixed_close Config.mixFormat h
    have hin := (outputs_inContract_iff _).2 ⟨p1, p2, t, n, d, h⟩
    exact ⟨afterMix s, _, q, answers_mix hin, rfl, hq, hq0, hclose⟩

end Sys2Proof.Proofs
end

section
/-! PROOFS. The interrupt arbiter (spec/44_interrupt_arbiter.md R170-R173): what CLRQ clears, what ISCR and PIN read, and
the service round of a status read and CLRQ. -/

namespace Sys2Proof.Proofs

open Sys2Proof.Machine Sys2Proof.Claims

/-! The three operations (R170-R172) -/

/-- The state after CLRQ: the latch and the reader's change request clear, the one DMC call in the trace (R170). -/
def afterClrq (s : State) : State :=
  { s with
    st := { s.st with irqChangeRequested := false }
    collab := { s.collab with d := dmcWith s.collab.d { s.collab.d.reader with changeRequested := false } }
    trace := [.clearChangeRequest], result := .nothing }

theorem answers_clrq (s : State) : Answers .clrq s (afterClrq s) := rfl

theorem answers_iscr (s : State) : Answers .iscr s (after s [] (.bool s.changeRequested) s.collab) := rfl

theorem answers_pin (s : State) : Answers .pin s (after s [] (.bool s.irqLine) s.collab) := rfl

theorem changeRequested_iff (s : State) :
    s.changeRequested = true ↔ s.st.irqChangeRequested = true ∨ s.collab.d.reader.changeRequested = true :=
  Bool.or_eq_true_iff

theorem irqLine_iff (s : State) :
    s.irqLine = true ↔ s.st.frameInterruptFlag = true ∨ s.collab.d.reader.irqFlag = true :=
  Bool.or_eq_true_iff

/-- Settles O40: the state after CLRQ is `afterClrq`. -/
theorem clrqClearsRequestsOnly : Obligations.ClrqClearsRequestsOnly := by
  unfold Obligations.ClrqClearsRequestsOnly
  exact ⟨decode_encode .clrq, answers_clrq⟩

/-- Settles O41: ISCR answers `changeRequested` and PIN answers `irqLine` of the state. -/
theorem iscrAndPinReadTheOr : Obligations.IscrAndPinReadTheOr := by
  unfold Obligations.IscrAndPinReadTheOr
  exact ⟨decode_encode .iscr, decode_encode .pin, fun s =>
    ⟨⟨s.changeRequested, answers_iscr s, changeRequested_iff s⟩, ⟨s.irqLine, answers_pin s, irqLine_iff s⟩⟩⟩

/-! The service round (R173, R188) -/

/-- CLRQ clears both sources of the change request. -/
theorem changeRequested_afterClrq (s : State) : (afterClrq s).changeRequested = false := rfl

/-- CLRQ leaves the line: it clears no IRQ flag. -/
theorem irqLine_afterClrq (s : State) : (afterClrq s).irqLine = s.irqLine := rfl

/-- A status read clears the frame flag, so the DMC IRQ flag alone drives the line after it. -/
theorem irqLine_afterStatusRead (s : State) : (afterStatusRead s).irqLine = s.collab.d.reader.irqFlag :=
  Bool.false_or _

/-- Settles O42: the status read clears the frame flag and sets the latch, which CLRQ then clears. -/
theorem serviceRoundDeassertsTheLine : Obligations.ServiceRoundDeassertsTheLine := by
  unfold Obligations.ServiceRoundDeassertsTheLine
  intro s hsmall hirq
  have hrun : execAll [.rdStatus, .clrq] s = .next (afterClrq (afterStatusRead s)) := by
    rw [execAll_cons_of_next (answers_rdStatus hsmall), execAll_cons_of_next (answers_clrq _), execAll]
  have hline : (afterClrq (afterStatusRead s)).irqLine = false := by
    rw [irqLine_afterClrq, irqLine_afterStatusRead, hirq]
  exact ⟨_, _, _, hrun, answers_iscr _, congrArg Result.bool (changeRequested_afterClrq _), answers_pin _,
    congrArg Result.bool hline⟩

end Sys2Proof.Proofs
end

section
/-! PROOFS. Which operations complete and which are refused (spec/60_exceptions.md R180-R182): none but a status read and
MIX tests anything before it answers. -/

namespace Sys2Proof.Proofs

open Sys2Proof.Machine Sys2Proof.Claims

theorem exec_rdStatus_of_not_countersSmall {s : State} (h : ¬ s.collab.CountersSmall) :
    exec .rdStatus s = .refused .collaboratorOutOfContract :=
  if_neg (mt (Collab.countersInContract_iff _).mp h)

/-- Settles O25: the contract of the counters is the test that a status read makes. -/
theorem statusReadRefusesCounterOutOfContract : Obligations.StatusReadRefusesCounterOutOfContract := by
  unfold Obligations.StatusReadRefusesCounterOutOfContract
  intro s h
  exact exec_rdStatus_of_not_countersSmall h

/-- A register write completes from every state: the branches on its data and on the state come before the answer. -/
theorem write_completes (r : Reg) (d : Byte) (s : State) : ∃ t, Answers (r.write d) s t := by
  cases r <;> exact ⟨_, rfl⟩

/-- Settles O55: a write completes, a read of a write-only register and each of the four operations beside MIX has its
answer, and a status read and MIX are decided by the one test each makes. -/
theorem onlyStatusReadAndMixCanRefuse : Obligations.OnlyStatusReadAndMixCanRefuse := by
  unfold Obligations.OnlyStatusReadAndMixCanRefuse
  intro i s
  cases i using instr_cases with
  | write r d => exact .inl (write_completes r d s)
  | read r =>
    by_cases hr : r = .status
    · subst hr
      by_cases hsmall : s.collab.CountersSmall
      · exact .inl ⟨_, answers_rdStatus hsmall⟩
      · exact .inr (.inl ⟨rfl, hsmall, exec_rdStatus_of_not_countersSmall hsmall⟩)
    · exact .inl ⟨_, answers_read_of_ne_status hr s⟩
  | clk => exact .inl ⟨_, execClk_eq s⟩
  | clrq => exact .inl ⟨_, answers_clrq s⟩
  | iscr => exact .inl ⟨_, answers_iscr s⟩
  | pin => exact .inl ⟨_, answers_pin s⟩
  | mix =>
    by_cases hin : s.collab.outputs.inContract = true
    · exact .inl ⟨_, answers_mix hin⟩
    · exact .inr (.inr ⟨rfl, Bool.eq_false_of_not_eq_true hin, exec_mix_of_not_inContract hin⟩)

end Sys2Proof.Proofs
end

section
/-! PROOFS. Reset and hazards (spec/70_reset_and_hazards.md R200, R201, R203, R206): the constructed state, the first
frame interrupt after it, and a five-step write that finds a delayed reset pending. -/

namespace Sys2Proof.Proofs

open Sys2Proof.Machine Sys2Proof.Claims

/-! A five-step write while a delayed reset is pending (R206) -/

/-- A run of CLOCKs leaves the trace of its last one. -/
theorem execAll_replicate_clk_succ (n : Nat) (s : State) :
    ∃ t, execAll (List.replicate (n + 1) .clk) s = .next t ∧ t.st = BlockState.clocked^[n + 1] s.st ∧
      t.trace = (BlockState.clocked^[n] s.st).clockCalls := by
  induction n generalizing s with
  | zero => exact ⟨_, execAll_cons_of_next (i := .clk) (execClk_eq s) [], rfl, rfl⟩
  | succ n ih =>
    obtain ⟨t, hrun, hst, htrace⟩ := ih _
    exact ⟨t, (execAll_cons_of_next (i := .clk) (execClk_eq s) _).trans hrun, hst, htrace⟩

/-- A pending reset that does not fire comes one CLOCK nearer. -/
theorem clocked_pending_of_succ {st : BlockState} {n m : Fin 3} (h : st.resetDelay = .pending n)
    (hmn : m.val + 1 = n.val) : st.clocked.resetDelay = .pending m := by
  rw [BlockState.clocked_delay]
  rcases delayed_cases st with ⟨hi, -⟩ | ⟨h0, -⟩ | ⟨n', m', hmn', hn', hd⟩
  · simp [hi] at h
  · obtain rfl : 0 = n := by simpa [h0] using h
    simp at hmn
  · obtain rfl : n' = n := by simpa [hn'] using h
    obtain rfl : m' = m := by omega
    rw [hd, BlockState.setDelay_delay]

/-- After `n` CLOCKs `Pending(n)` is about to fire, in the mode there was. -/
theorem iterate_clocked_about_to_fire {st : BlockState} {n : Fin 3} (h : st.resetDelay = .pending n) :
    (BlockState.clocked^[n.val] st).resetDelay = .pending 0 ∧ (BlockState.clocked^[n.val] st).mode = st.mode := by
  obtain ⟨n, hn⟩ := n
  induction n generalizing st with
  | zero => exact ⟨h, rfl⟩
  | succ n ih =>
    obtain ⟨hdelay, hmode⟩ := ih (by omega) (clocked_pending_of_succ h rfl)
    exact ⟨hdelay, hmode.trans st.clocked_mode⟩

/-- In five-step mode the CLOCK that fires the delayed reset makes the calls of both events (R142). -/
theorem clockCalls_of_fiveStep_firing {st : BlockState} (h : st.resetDelay = .pending 0) (hm : st.mode = .fiveStep) :
    st.clockCalls = timerCalls ++ quarterCalls ++ halfCalls := by
  rw [clockCalls_of_pending_zero h, BlockState.delayCalls, if_pos ⟨h, hm⟩]
  rfl

/-- In five-step mode `Pending(n)` fires both events on the `n + 1`th CLOCK, which leaves the count at 1. -/
theorem fiveStep_pending_fires_events {s : State} {n : Fin 3} (hm : s.st.mode = .fiveStep)
    (h : s.st.resetDelay = .pending n) :
    ∃ t, execAll (List.replicate (n.val + 1) .clk) s = .next t ∧
      t.trace = timerCalls ++ quarterCalls ++ halfCalls ∧ t.st.cycle = 1 ∧ t.st.resetDelay = .idle ∧
      t.st.mode = .fiveStep := by
  obtain ⟨t, hrun, hst, htrace⟩ := execAll_replicate_clk_succ n.val s
  obtain ⟨hfiring, hfiringMode⟩ := iterate_clocked_about_to_fire h
  obtain ⟨hcycle, hdelay, hmode⟩ := iterate_clocked_of_pending h
  exact ⟨t, hrun, htrace.trans (clockCalls_of_fiveStep_firing hfiring (hfiringMode.trans hm)), hst ▸ hcycle,
    hst ▸ hdelay, hst ▸ hmode.trans hm⟩

/-- A frame-counter write with bit 7 makes the calls of both events at once and leaves a pending reset (R122). -/
theorem fiveStep_write {y : Byte} (h7 : y.getLsbD 7 = true) (s : State) :
    ∃ t, Answers (.wrFramecnt y) s t ∧ t.trace = quarterCalls ++ halfCalls ∧ t.st.mode = .fiveStep ∧
      t.st.resetDelay = s.st.resetDelay := by
  obtain ⟨-, hwrite⟩ := frameCounterWrite y s
  rw [if_pos h7] at hwrite
  exact ⟨_, hwrite, rfl, if_pos h7, if_pos h7⟩

/-- A frame-counter write without bit 7 arms the delayed reset (R122). -/
theorem fourStep_write_arms {x : Byte} (h7 : x.getLsbD 7 = false) (s : State) :
    ∃ t, Answers (.wrFramecnt x) s t ∧ t.st.resetDelay = .pending 2 := by
  obtain ⟨t, hwrite⟩ := write_completes .framecnt x s
  refine ⟨t, hwrite, ?_⟩
  rw [exec_st hwrite]
  exact (frameWritten_delay x s.st).trans (if_neg (Bool.eq_false_iff.mp h7))

/-- Settles O34: the write leaves five-step mode with the reset still pending, which then fires; the arming pair is the
case of `Pending(2)`. -/
theorem fiveStepWriteWhilePendingClocksTwice : Obligations.FiveStepWriteWhilePendingClocksTwice := by
  unfold Obligations.FiveStepWriteWhilePendingClocksTwice
  constructor
  · intro y s n hy hpending
    obtain ⟨t, hwrite, htrace, hmode, hkept⟩ := fiveStep_write hy s
    have hdelay := hkept.trans hpending
    obtain ⟨u, hfires⟩ := fiveStep_pending_fires_events hmode hdelay
    exact ⟨t, u, hwrite, htrace, hdelay, hfires⟩
  · intro x y s hx hy
    obtain ⟨w, harm, hpending⟩ := fourStep_write_arms hx s
    obtain ⟨t, hwrite, htrace, hmode, hkept⟩ := fiveStep_write hy w
    obtain ⟨u, hfires⟩ := fiveStep_pending_fires_events hmode (hkept.trans hpending)
    refine ⟨t, u, ?_, htrace, hfires⟩
    rw [execAll_cons_of_next harm, execAll_cons_of_next hwrite, execAll]

/-! The first frame interrupt (R203) -/

/-- In four-step mode, not inhibited and with no reset pending, the CLOCK to the terminal count raises the frame
interrupt and puts the count to 0. -/
theorem clocked_of_idle_fourStep_terminal {st : BlockState} (hidle : st.resetDelay = .idle) (hm : st.mode = .fourStep)
    (hi : st.interruptInhibit = false) (hc : st.cycle + 1 = Config.t4) :
    st.clocked = { st with cycle := 0, frameInterruptFlag := true, irqChangeRequested := true } := by
  rw [BlockState.clocked, delayed_of_idle hidle, BlockState.checked_fourStep (st := st.setCycle (st.cycle + 1)) hm hc,
    frameIrq_eq, BlockState.setCycle_inhibit, hi]
  rfl

/-- Settles O35: 14914 CLOCKs count to 14914, and the next one reaches the terminal count. -/
theorem firstFrameInterruptOnClock14915 : Obligations.FirstFrameInterruptOnClock14915 := by
  unfold Obligations.FirstFrameInterruptOnClock14915
  intro s h0 hm hi hidle _
  have hcounts {n : Nat} (hn : n < 14915) :
      BlockState.clocked^[n] s.st = s.st.setCycle (BitVec.ofNat 16 n) :=
    iterate_clocked_of_idle hidle h0 (by rwa [hm])
  constructor
  · intro n hn
    obtain ⟨t, hrun, ht⟩ := execAll_replicate_clk n s
    exact ⟨t, hrun, ht.trans (hcounts hn)⟩
  · obtain ⟨t, hrun, ht⟩ := execAll_replicate_clk 14915 s
    refine ⟨t, hrun, ht.trans ?_⟩
    rw [Function.iterate_succ_apply', hcounts (by decide)]
    exact clocked_of_idle_fourStep_terminal (st := s.st.setCycle 14914#16) hidle hm hi rfl

/-! Construction (R200, R201) -/

/-- Settles O1: construction sets every field of the block state and makes no call. -/
theorem constructionGivesResetState : Obligations.ConstructionGivesResetState := by
  unfold Obligations.ConstructionGivesResetState
  exact ⟨fun _ => ⟨rfl, rfl, rfl⟩, .init, rfl⟩

theorem reset_inhibitedIsClear : BlockState.reset.InhibitedIsClear := fun _ => rfl

/-- A constructed state has the invariant as soon as its counters are in their range. -/
theorem construct_inv {c : Collab} (hc : c.CountersSmall) : (State.construct c).Inv := by
  obtain ⟨hcount, -⟩ := reset_countBounded
  exact ⟨hcount, reset_inhibitedIsClear, hc⟩

/-- Settles O57: the model's own `COLLAB_INIT` has every length counter at 0. -/
theorem constructionHasTheInvariant : Obligations.ConstructionHasTheInvariant := by
  unfold Obligations.ConstructionHasTheInvariant
  exact ⟨fun _ hc => construct_inv hc, construct_inv (by decide)⟩

end Sys2Proof.Proofs
end
